-- ==== Sys2Proof/Word.lean ====
section
/-! DEFINITION. The bit-level types of the block (00_scope.md R16: bit 0 is the least significant bit; every value is
unsigned). -/

namespace Sys2Proof

/-- One bit: `true` is 1, `false` is 0. Pin levels, samples and flags are bits. -/
abbrev Bit := Bool

/-- Eight bits: a display value, a segment pattern, a report byte. -/
abbrev Byte := BitVec 8

/-- One event word (30_encoding.md R70: 16 bits, bit 15 the most significant). -/
abbrev EventWord := BitVec 16

/-- The decoded value (00_scope.md R7: ACC_WIDTH = 64). -/
abbrev AccWord := BitVec 64

end Sys2Proof
end

