-- ==== Sys2Proof/Config.lean ====
section
/-! DEFINITION. The build parameters (00_scope.md section 3) and the fixed sizes. A `Params` is plain data that State
carries unchanged (log entry 1), so that what is said of every state is said of every build. -/

namespace Sys2Proof

/-- The parameters that are fixed when the block is built (70_reset_and_hazards.md R224). -/
structure Params where
  /-- `N_SAMPLES`, the capacity of the sample buffer (R5). -/
  nSamples : Nat
  /-- `TOL`, the decoder tolerance in sample ticks (R6). -/
  tol : Nat
  /-- `SEG_TABLE`, the patterns of the digits 0..9 in segment-on logic (R9). -/
  segTable : Vector Byte 10
  /-- `SEG_POLARITY`, XORed into every bit driven onto SDATA (R10). -/
  segPolarity : Bit
  /-- `IR_ACTIVE_LOW`: a low IR pin is the logical sample 1 (R11). -/
  irActiveLow : Bit
  /-- `ENTROPY_WIDTH`, the width of the entropy counter (R12). -/
  entropyWidth : Nat
deriving DecidableEq, Repr

/-- The legal parameter values: N_SAMPLES at least 1 (R5), ENTROPY_WIDTH at least 1 (R12), TOL at least 0 (R6,
every natural). -/
abbrev Params.legal (c : Params) : Prop := 1 ≤ c.nSamples ∧ 1 ≤ c.entropyWidth

/-- 40_segment_encoder.md R101 (a) and (b): the ten patterns are pairwise distinct, and none is the blank pattern.
R101 (c), a constant of the hardware, is that no event changes `cfg`. A hypothesis of the statements that need it. -/
abbrev Params.segTableLegal (c : Params) : Prop := c.segTable.toList.Nodup ∧ (0x00#8) ∉ c.segTable.toList

/-- REPORT_BYTES = 5 (R8). -/
abbrev reportBytes : Nat := 5

/-- SEG_TABLE of the built hardware: OPEN (R9), so nothing is known of it (log entry 2). -/
opaque Config.segTable : Vector Byte 10

/-- SEG_POLARITY of the built hardware: OPEN (R10), so nothing is known of it (log entry 2). -/
opaque Config.segPolarity : Bit

/-- The parameters `State.reset` takes: the reference values of N_SAMPLES and TOL (R5, R6; DESIGN CHOICE, log entry
2), the decided values of IR_ACTIVE_LOW and ENTROPY_WIDTH (R11, R12), and the two OPEN parameters left unknown. -/
def Config.built : Params where
  nSamples := 512
  tol := 3
  segTable := Config.segTable
  segPolarity := Config.segPolarity
  irActiveLow := true
  entropyWidth := 16

/-- REF_SEG_TABLE (40_segment_encoder.md R106, general knowledge): used by test vectors only, never by a meaning. -/
def Config.refSegTable : Vector Byte 10 :=
  #v[0x3F#8, 0x06#8, 0x5B#8, 0x4F#8, 0x66#8, 0x6D#8, 0x7D#8, 0x07#8, 0x7F#8, 0x6F#8]

end Sys2Proof
end

