-- ==== Sys2Proof/Syntax.lean ====
section
/-! DEFINITION. The syntax: the six input events, the agents that deliver them, the closed list of refusal reasons, and
the assembler's lines. -/

namespace Sys2Proof

/-- One input event with its operand: one constructor per row of the opcode table (30_encoding.md R71). -/
inductive Instr where
  /-- WRDISP: the host sets the display value (41_display_multiplexer.md R120). -/
  | wrdisp (value : Byte)
  /-- MUXTICK: one multiplex tick (R121). -/
  | muxtick
  /-- SAMPTICK: one sample tick, with the electrical level of IR_IN (42_pulse_sampler.md R150; 1 is high). -/
  | samptick (level : Bit)
  /-- TXACK: the serial channel takes the offered report byte (43_duration_decoder.md R178). -/
  | txack
  /-- RDENT: the host reads the entropy counter (R126). -/
  | rdent
  /-- RESET: every register to its reset state (70_reset_and_hazards.md R220). -/
  | reset
deriving DecidableEq, Repr

/-- The five agents that produce events (10_state.md R20). -/
inductive Agent where
  | host
  | muxtimer
  | samptimer
  | serial
  | rst
deriving DecidableEq, Repr

/-- The agent each event belongs to (30_encoding.md R71). -/
def Instr.agent : Instr → Agent
  | .wrdisp _ => .host
  | .muxtick => .muxtimer
  | .samptick _ => .samptimer
  | .txack => .serial
  | .rdent => .host
  | .reset => .rst

/-- The refusal reasons, a closed list (60_exceptions.md R203). -/
inductive RefuseReason where
  /-- Raised by the event decoder: OP is 0x0 or 0x6 to 0xE. -/
  | reservedOp
  /-- Raised by the event decoder: bits 11:8 are not zero. -/
  | rsvNonzero
  /-- Raised by the event decoder: a DATA bit is set that the format requires to be 0. -/
  | dataNonzero
  /-- Raised by TXACK: no byte is offered, SPHASE = CAPTURE. -/
  | txackIdle
deriving DecidableEq, Repr

/-- What the event decoder answers (30_encoding.md R74): an event with its operand, or an invalid verdict with its
reason. -/
inductive Decoded where
  | event (i : Instr)
  | invalid (r : RefuseReason)
deriving DecidableEq, Repr

/-- One assembler line (30_encoding.md R78, R79), with its numbers as they are written, before any range check. -/
inductive AsmLine where
  | wrdisp (v : Nat)
  | mux
  | samp (level : Nat)
  | txack
  | rdent
  | reset
  /-- `.word 0xHHHH`, the printer's spelling of a reserved word (R80). -/
  | word (w : Nat)
  /-- Pseudo: `wrdisp 0xFF`. -/
  | blank
  /-- Pseudo: `mux` twice, which services both positions. -/
  | cycle
  /-- Pseudo: the logical sample. -/
  | sampl (s : Nat)
  /-- Pseudo: the line repeated `k` times. -/
  | rep (k : Nat) (line : AsmLine)
  /-- Pseudo: `txack` five times. -/
  | txall
deriving DecidableEq, Repr

end Sys2Proof
end

