-- ==== Sys2Proof/WellFormed.lean ====
section
/-! DEFINITION. Which terms are well formed. An event's operands carry their widths in their types (30_encoding.md R72,
R73: every 8-bit value and both levels are legal), so no event is ill formed; an assembler line's numbers are checked
(R78, R79: an operand out of range is an assembly error, not a word). -/

namespace Sys2Proof

/-- Every event term is well formed: its operand's type is exactly the range its format admits (R72, R73). -/
def Instr.wellFormed : Instr → Bool
  | .wrdisp _ => true
  | .muxtick => true
  | .samptick _ => true
  | .txack => true
  | .rdent => true
  | .reset => true

/-- The operand ranges of the assembler (R78: v in 0..255, L in 0 and 1; R79: s in 0 and 1, k at least 1; a word has
16 bits). -/
def AsmLine.wellFormed : AsmLine → Bool
  | .wrdisp v => decide (v ≤ 255)
  | .mux => true
  | .samp l => decide (l ≤ 1)
  | .txack => true
  | .rdent => true
  | .reset => true
  | .word w => decide (w < 65536)
  | .blank => true
  | .cycle => true
  | .sampl s => decide (s ≤ 1)
  | .rep k line => decide (1 ≤ k) && line.wellFormed
  | .txall => true

end Sys2Proof
end

