-- ==== Sys2Proof/Decode.lean ====
section
/-! DEFINITION. The event decoder and, after it, the encoder (30_encoding.md R70 to R77). -/

namespace Sys2Proof

/-- OP, bits 15:12 (R70). -/
def opField (w : EventWord) : BitVec 4 := w.extractLsb' 12 4

/-- RSV, bits 11:8 (R70). -/
def rsvField (w : EventWord) : BitVec 4 := w.extractLsb' 8 4

/-- DATA, bits 7:0 (R70). -/
def dataField (w : EventWord) : Byte := w.extractLsb' 0 8

/-- The reserved OP values, 0x0 and 0x6 to 0xE (R71). -/
def reservedOps : List (BitVec 4) :=
  [0x0#4, 0x6#4, 0x7#4, 0x8#4, 0x9#4, 0xA#4, 0xB#4, 0xC#4, 0xD#4, 0xE#4]

/-- FMT_Z: all of DATA must be 0 (R72). -/
def needZeroData (data : Byte) (i : Instr) : Decoded :=
  if data = 0 then .event i else .invalid .dataNonzero

/-- The `case op of` of R74, on a word whose OP is not reserved and whose RSV is 0. -/
def decodeOperand (op : BitVec 4) (data : Byte) : Decoded :=
  if op = 0x1 then .event (.wrdisp data)
  else if op = 0x3 then
    if data.extractLsb' 1 7 = 0 then .event (.samptick (data.getLsbD 0)) else .invalid .dataNonzero
  else if op = 0x2 then needZeroData data .muxtick
  else if op = 0x4 then needZeroData data .txack
  else if op = 0x5 then needZeroData data .rdent
  else if op = 0xF then needZeroData data .reset
  else .invalid .reservedOp

/-- The event decoder, total on every 16-bit word (R74): the reasons are checked in the order RESERVED_OP,
RSV_NONZERO, DATA_NONZERO, so a word with several faults reports exactly one. -/
def decodeEvent (w : EventWord) : Decoded :=
  if opField w ∈ reservedOps then .invalid .reservedOp
  else if rsvField w ≠ 0 then .invalid .rsvNonzero
  else decodeOperand (opField w) (dataField w)

/-- A legal word: one of the 262 the decoder takes for an event (R76). -/
def legalWord (w : EventWord) : Bool :=
  match decodeEvent w with
  | .event _ => true
  | .invalid _ => false

/-- OP of each event (R71). -/
def Instr.op : Instr → BitVec 4
  | .wrdisp _ => 0x1
  | .muxtick => 0x2
  | .samptick _ => 0x3
  | .txack => 0x4
  | .rdent => 0x5
  | .reset => 0xF

/-- DATA of each event, by its format: FMT_W8, FMT_B1 or FMT_Z (R72). -/
def Instr.data : Instr → Byte
  | .wrdisp v => v
  | .muxtick => 0
  | .samptick l => (0 : BitVec 7) ++ BitVec.ofBool l
  | .txack => 0
  | .rdent => 0
  | .reset => 0

/-- The event word of an event: OP, then RSV = 0, then DATA (R70, R72). -/
def encode (i : Instr) : EventWord := i.op ++ (0 : BitVec 4) ++ i.data

/-- The event the decoder reads from the table word `w` of `nbits` bits (the bits above are 0). Event words have no
byte order (20_memory.md R57) and the opcode table numbers a word's bits as R70 does, so the word is given to the
decoder as it is; there is one length, 16 bits (R70), so a word with a bit set above them is none. -/
def decodeTableWord (nbits w : Nat) : Option Instr :=
  if w % 2 ^ nbits < 65536 then
    match decodeEvent (BitVec.ofNat 16 (w % 2 ^ nbits)) with
    | .event i => some i
    | .invalid _ => none
  else none

end Sys2Proof
end

