-- ==== Sys2Proof/Machine/State.lean ====
section
/-! DEFINITION. The state of the block as plain data: every register of 10_state.md, the refusal mark, the trace, the
build parameters and the events still to come. -/

namespace Sys2Proof.Machine

/-- A digit position (00_scope.md R19). -/
inductive Pos where
  | left
  | right
deriving DecidableEq, Repr

/-- The sampler phase (00_scope.md R19). -/
inductive Phase where
  /-- Sample ticks are processed. -/
  | capture
  /-- A decode has completed and its report is being sent. -/
  | report
deriving DecidableEq, Repr

/-- The encoder's input: a natural number, or BLANK (00_scope.md R19). -/
inductive DigitCode where
  | num (d : Nat)
  | blank
deriving DecidableEq, Repr

/-- The output pin registers (10_state.md R26 to R29, R37). -/
inductive Pin where
  | selL
  | selR
  | sdata
  | sclk
  | latch
  | irmon
deriving DecidableEq, Repr

/-- One trace item (10_state.md R44). -/
inductive Item where
  /-- A write of a level to an output pin register. -/
  | pin (p : Pin) (level : Bit)
  /-- A byte accepted by the serial channel. -/
  | tx (b : Byte)
  /-- A value returned to the host. -/
  | rd (v : Nat)
  /-- A reset. -/
  | rst
deriving DecidableEq, Repr

/-- The sample buffer BUF (10_state.md R34): pairs of an index and its bit, indices strictly rising. A cell that is
not listed holds no value. -/
abbrev Memory := List (Nat × Bit)

/-- Why the model stops. The hardware has no fault (60_exceptions.md R200, R202): both stand where a register or cell
that holds NO VALUE would be read, which no state that meets `State.Inv` does (log entry 7). -/
inductive Fault where
  /-- Raised by SAMPTICK: the decoder would read a cell that holds no value. Safe. -/
  | unwrittenCell
  /-- Raised by TXACK: SPHASE is REPORT and ACC is none. Safe. -/
  | accNone
deriving DecidableEq, Repr

/-- No meaning for an event. Every event has its meaning, so nothing raises it; the spec's own refusals are next
states whose REFUSED is set (60_exceptions.md R203; log entry 5). -/
inductive Refusal where
  /-- Raised by an arm of `exec` whose event is not modelled (none is). Safe. -/
  | notModelled (mnemonic : String)
deriving DecidableEq, Repr

/-- The machine. -/
structure State where
  /-- DISPVAL, the display value (R21). -/
  dispval : Byte
  /-- POS, the active position (R22). -/
  pos : Pos
  /-- PAT_L, the pattern last shifted out for LEFT, in segment-on logic (R23). -/
  patL : Byte
  /-- PAT_R, the pattern last shifted out for RIGHT (R24). -/
  patR : Byte
  /-- ENTROPY, counted modulo 2^ENTROPY_WIDTH (R25). -/
  entropy : Nat
  /-- SEL_L (R26). -/
  selL : Bit
  /-- SEL_R (R26). -/
  selR : Bit
  /-- SDATA (R27). -/
  sdata : Bit
  /-- SCLK (R28). -/
  sclk : Bit
  /-- LATCH (R29). -/
  latch : Bit
  /-- SPHASE, the sampler phase (R30). -/
  sphase : Phase
  /-- ARMED (R31). -/
  armed : Bit
  /-- IDX, the write index, 0..N_SAMPLES (R32). -/
  idx : Nat
  /-- BUF, the sample buffer (R34). -/
  buf : Memory
  /-- ACC, the decoded value or none (R35). -/
  acc : Option AccWord
  /-- TXK, the index of the next report byte, 0..4 (R36). -/
  txk : Fin reportBytes
  /-- IRMON, the status mirror (R37). -/
  irmon : Bit
  /-- REFUSED, the sticky refusal mark (R38). -/
  refused : Option RefuseReason
  /-- The trace, its oldest item first (R44). -/
  trace : List Item
  /-- The build parameters, which no event changes (70_reset_and_hazards.md R224; log entry 1). -/
  cfg : Params
  /-- The event words still to be applied, the next one first: the MODEL'S OWN field (R40; log entry 3). -/
  events : List EventWord
deriving DecidableEq, Repr

/-- Power-on: the state after RESET, with an empty trace and REFUSED = none (70_reset_and_hazards.md R220, R222), of
the hardware as built (log entry 2) and with no event delivered (log entry 3). -/
def State.reset : State where
  dispval := 0xFF
  pos := .right
  patL := 0x00
  patR := 0x00
  entropy := 0
  selL := false
  selR := false
  sdata := false
  sclk := false
  latch := false
  sphase := .capture
  armed := false
  idx := 0
  buf := []
  acc := none
  txk := 0
  irmon := false
  refused := none
  trace := []
  cfg := Config.built
  events := []

end Sys2Proof.Machine
end

