-- ==== Sys2Proof/Machine/Ops.lean ====
section
/-! DEFINITION. The shared operations: the sample buffer, the primitives `pinWrite`, `emit` and `refuse` of 00_scope.md
R17, and the queue of events. The block takes no exception and returns from none (60_exceptions.md R200, R208), so there
is no operation that does; the one outcome beside a normal step is `refuse` (R203). -/

namespace Sys2Proof.Machine

/-! ### The sample buffer -/

/-- The canonical form: indices strictly rising. An unlisted cell holds no value, so no entry can equal it. -/
abbrev Memory.wf (m : Memory) : Prop := m.Pairwise fun x y => x.1 < y.1

/-- `BUF[i]` (R17), none where the cell holds no value (10_state.md R34). -/
def Memory.read : Memory → Nat → Option Bit
  | [], _ => none
  | (k, b) :: rest, i => if k = i then some b else Memory.read rest i

/-- `BUF[i] <- b` (R17), in canonical form. -/
def Memory.write : Memory → Nat → Bit → Memory
  | [], i, b => [(i, b)]
  | (k, c) :: rest, i, b =>
    if i < k then (i, b) :: (k, c) :: rest
    else if i = k then (i, b) :: rest
    else (k, c) :: Memory.write rest i b

/-- `BUF[i .. i+n-1]` in index order, none if one of the cells holds no value. -/
def Memory.readRange (m : Memory) (i : Nat) : Nat → Option (List Bit)
  | 0 => some []
  | n + 1 =>
    match m.read i, m.readRange (i + 1) n with
    | some b, some bs => some (b :: bs)
    | _, _ => none

/-! ### Trace and pins -/

/-- `emit item`: append a trace item (R17, R44). -/
def State.emit (s : State) (t : Item) : State := { s with trace := s.trace ++ [t] }

/-- Set an output pin register. -/
def State.setPin (s : State) (p : Pin) (level : Bit) : State :=
  match p with
  | .selL => { s with selL := level }
  | .selR => { s with selR := level }
  | .sdata => { s with sdata := level }
  | .sclk => { s with sclk := level }
  | .latch => { s with latch := level }
  | .irmon => { s with irmon := level }

/-- The level an output pin register holds. -/
def State.pinLevel (s : State) (p : Pin) : Bit :=
  match p with
  | .selL => s.selL
  | .selR => s.selR
  | .sdata => s.sdata
  | .sclk => s.sclk
  | .latch => s.latch
  | .irmon => s.irmon

/-- `pinWrite(P, v)`: set the pin register and append `pin(P, v)`, also when the level stays (R17, R44). -/
def State.pinWrite (s : State) (p : Pin) (level : Bit) : State := (s.setPin p level).emit (.pin p level)

/-- One pulse of a line that idles at 0: a write of 1, then a write of 0 (41_display_multiplexer.md R123, R124). -/
def State.pulse (s : State) (p : Pin) : State := (s.pinWrite p true).pinWrite p false

/-! ### Refusal -/

/-- `refuse(r)`: set the sticky mark, and no other effect (60_exceptions.md R203). -/
def State.refuse (s : State) (r : RefuseReason) : State := { s with refused := some r }

/-- Once REFUSED is set, every later event, RESET included, leaves the state and the trace unchanged (R203). -/
def State.whenLive (s : State) (event : State → Host.Outcome State Fault Refusal) :
    Host.Outcome State Fault Refusal :=
  match s.refused with
  | none => event s
  | some _ => .next s

/-! ### The queue of events -/

/-- The environment delivers event words: they come after the ones already waiting (log entry 3). -/
def State.deliver (s : State) (ws : List EventWord) : State := { s with events := s.events ++ ws }

/-- The next event word and the state without it, none when no event waits. -/
def State.takeEvent (s : State) : Option (EventWord × State) :=
  match s.events with
  | [] => none
  | w :: rest => some (w, { s with events := rest })

/-- Put an event word in front of every waiting one (log entry 3). -/
def State.offerNext (s : State) (w : EventWord) : State := { s with events := w :: s.events }

end Sys2Proof.Machine
end

