-- ==== Sys2Proof/Machine/Operands.lean ====
section
/-! DEFINITION. The combinational functions of the events' operands: the two digits of a display value, the segment
encoder, the wire level of a pattern bit, the logical sample and the report byte. -/

namespace Sys2Proof.Machine

/-- The position encoding of 00_scope.md R19: LEFT = 1, RIGHT = 0. -/
def Pos.code : Pos → Bit
  | .left => true
  | .right => false

/-- The other position: MUXTICK toggles POS (41_display_multiplexer.md R121). -/
def Pos.other : Pos → Pos
  | .left => .right
  | .right => .left

/-- The digit-select pin of a position (10_state.md R26). -/
def Pos.selectPin : Pos → Pin
  | .left => .selL
  | .right => .selR

/-- `digitOf(v, pos)`: the tens digit on the left, the units digit on the right, BLANK above 99
(40_segment_encoder.md R104). -/
def digitOf (v : Byte) (pos : Pos) : DigitCode :=
  if v.toNat > 99 then .blank
  else
    match pos with
    | .left => .num (v.toNat / 10)
    | .right => .num (v.toNat % 10)

/-- `encode(d)`: SEG_TABLE for a digit 0..9, the blank pattern 0x00 for everything else (R100, R102). -/
def segEncode (c : Params) (d : DigitCode) : Byte :=
  match d with
  | .num n => if h : n < 10 then c.segTable[n] else 0x00
  | .blank => 0x00

/-- The pattern of a position: `encode(digitOf(v, pos))` (R105). -/
def segPattern (c : Params) (v : Byte) (pos : Pos) : Byte := segEncode c (digitOf v pos)

/-- The bit driven onto SDATA for pattern bit `k`: `p[k] XOR SEG_POLARITY` (R103). -/
def wireBit (c : Params) (p : Byte) (k : Nat) : Bit := p.getLsbD k ^^ c.segPolarity

/-- The logical sample: NOT L when IR_ACTIVE_LOW, else L (42_pulse_sampler.md R151). -/
def sampleBit (c : Params) (level : Bit) : Bit := if c.irActiveLow then !level else level

/-- Report byte `k`: `ACC[8k+7 : 8k]` (20_memory.md R54). -/
def reportByte (acc : AccWord) (k : Nat) : Byte := acc.extractLsb' (8 * k) 8

end Sys2Proof.Machine
end

