-- ==== Sys2Proof/Machine/Flags.lean ====
section
/-! DEFINITION. The two status flags (10_state.md R41) and the output ports that are computed, not stored (R43). -/

namespace Sys2Proof.Machine

/-- FULL, derived and never stored: IDX = N_SAMPLES (R33). -/
def State.full (s : State) : Bit := decide (s.idx = s.cfg.nSamples)

/-- Arming: on an active sample when ARMED = 0 (42_pulse_sampler.md R153). ARMED is not cleared by a sample of 0. -/
def State.armOn (s : State) (sample : Bit) : State :=
  if s.armed = false ∧ sample = true then { s with armed := true } else s

/-- TX_VALID: 1 exactly when SPHASE = REPORT (R43). -/
def State.txValid (s : State) : Bit := decide (s.sphase = .report)

/-- TX_DATA: the offered report byte when TX_VALID = 1, no value otherwise (R43). -/
def State.txData (s : State) : Option Byte :=
  match s.sphase with
  | .report => s.acc.map fun a => reportByte a s.txk.val
  | .capture => none

/-- ENTROPY_OUT: the value RDENT returns, which is ENTROPY (R43). -/
def State.entropyOut (s : State) : Nat := s.entropy

end Sys2Proof.Machine
end

