-- ==== Sys2Proof/Machine/Display.lean ====
section
/-! DEFINITION. The display events: WRDISP, MUXTICK and RDENT (41_display_multiplexer.md). -/

namespace Sys2Proof.Machine

/-- WRDISP (R120). -/
def execWrdisp (value : Byte) (s : State) : Host.Outcome State Fault Refusal :=
  s.whenLive fun s => .next { s with dispval := value }

/-- Store the pattern of the serviced position: `PAT_L <- p` or `PAT_R <- p` (R121). -/
def State.setPattern (s : State) (pos : Pos) (p : Byte) : State :=
  match pos with
  | .left => { s with patL := p }
  | .right => { s with patR := p }

/-- The time-division selector: release the old line, then assert the new one (R122). -/
def State.selectDigit (s : State) (pos : Pos) : State :=
  (s.pinWrite pos.other.selectPin false).pinWrite pos.selectPin true

/-- One shifted bit: the data, then one pulse of SCLK (R123). -/
def State.shiftBit (s : State) (p : Byte) (k : Nat) : State :=
  (s.pinWrite .sdata (wireBit s.cfg p k)).pulse .sclk

/-- `for k = 7 downto 0`: the most significant bit first (R121, R123; 20_memory.md R55). -/
def shiftOrder : List Nat := [7, 6, 5, 4, 3, 2, 1, 0]

/-- Shift out the bits of the pattern in the order `ks`. -/
def State.shiftOut (s : State) (p : Byte) (ks : List Nat) : State := ks.foldl (fun s k => s.shiftBit p k) s

/-- `ENTROPY <- (ENTROPY + 1) mod 2^ENTROPY_WIDTH` (R125). -/
def State.countTick (s : State) : State :=
  { s with entropy := (s.entropy + 1) % 2 ^ s.cfg.entropyWidth }

/-- One multiplex tick, in the order of R121: DISPVAL is read once, then toggle, pattern, select, shift-out, latch,
entropy. -/
def State.muxTick (s : State) : State :=
  let v := s.dispval
  let pos := s.pos.other
  let p := segPattern s.cfg v pos
  let s := { s with pos := pos }
  let s := s.setPattern pos p
  let s := s.selectDigit pos
  let s := s.shiftOut p shiftOrder
  let s := s.pulse .latch
  s.countTick

/-- MUXTICK (R121): never refused (R131), the same in CAPTURE and in REPORT (R130). -/
def execMuxtick (s : State) : Host.Outcome State Fault Refusal :=
  s.whenLive fun s => .next s.muxTick

/-- RDENT (R126): the only effect is the trace item. -/
def execRdent (s : State) : Host.Outcome State Fault Refusal :=
  s.whenLive fun s => .next (s.emit (.rd s.entropyOut))

end Sys2Proof.Machine
end

