-- ==== Sys2Proof/Machine/Reset.lean ====
section
/-! DEFINITION. The RESET event (70_reset_and_hazards.md R220). -/

namespace Sys2Proof.Machine

/-- Every register in its reset state; the trace and REFUSED stay, and so do the model's own fields. Pin levels are set
directly, with no `pin` item (R220). -/
def State.resetRegisters (s : State) : State :=
  { s with
    dispval := 0xFF
    pos := .right
    patL := 0x00
    patR := 0x00
    entropy := 0
    selL := false
    selR := false
    sdata := false
    sclk := false
    latch := false
    sphase := .capture
    armed := false
    idx := 0
    buf := []
    acc := none
    txk := 0
    irmon := false }

/-- RESET (R220): when REFUSED is already set it does nothing (60_exceptions.md R203). -/
def execReset (s : State) : Host.Outcome State Fault Refusal :=
  s.whenLive fun s => .next (s.resetRegisters.emit .rst)

end Sys2Proof.Machine
end

