-- ==== Sys2Proof/Machine/Sampler.lean ====
section
/-! DEFINITION. The sampler events: SAMPTICK (42_pulse_sampler.md) with the run-length decoder, and TXACK
(43_duration_decoder.md). -/

namespace Sys2Proof.Machine

/-! ### The duration decoder -/

/-- The decoder's variables (43_duration_decoder.md R170): the run counters are naturals and never wrap (00_scope.md
R15). -/
structure Scan where
  prev : Bit
  mark : Nat
  space : Nat
  acc : AccWord
deriving DecidableEq, Repr

/-- Before the first sample (R170). -/
def Scan.init : Scan where
  prev := false
  mark := 0
  space := 0
  acc := 0

/-- The bit rule: 1 if and only if the mark exceeds the space by strictly more than TOL (R171). -/
def pairBit (tol mark space : Nat) : Bit := decide (mark > space + tol)

/-- `acc <- ((acc << 1) OR bit) mod 2^64` (R173). -/
def shiftIn (acc : AccWord) (b : Bit) : AccWord := (acc <<< 1) ||| (BitVec.ofBool b).setWidth 64

/-- At a 0→1 transition: decode one bit and reset both counters; nothing happens at any other sample (R172). -/
def Scan.edge (tol : Nat) (r : Scan) (sample : Bit) : Scan :=
  if r.prev = false ∧ sample = true then
    { r with acc := shiftIn r.acc (pairBit tol r.mark r.space), mark := 0, space := 0 }
  else r

/-- Count the sample into its run (R170). -/
def Scan.count (r : Scan) (sample : Bit) : Scan :=
  if sample = true then { r with mark := r.mark + 1, prev := sample }
  else { r with space := r.space + 1, prev := sample }

/-- One sample of the scan (R170). -/
def Scan.step (tol : Nat) (r : Scan) (sample : Bit) : Scan := (r.edge tol sample).count sample

/-- The scan of a sequence of samples, the oldest first. -/
def scanSamples (tol : Nat) (r : Scan) (B : List Bit) : Scan := B.foldl (Scan.step tol) r

/-- `decode(B)` (R170): pure and total, no validity marker (R176). -/
def decodeSamples (tol : Nat) (B : List Bit) : AccWord := (scanSamples tol Scan.init B).acc

/-! ### SAMPTICK -/

/-- `BUF[IDX] <- s` and `IDX <- IDX + 1` (42_pulse_sampler.md R154). -/
def State.storeSample (s : State) (sample : Bit) : State :=
  { s with buf := s.buf.write s.idx sample, idx := s.idx + 1 }

/-- Buffer full: decode, store ACC, `TXK <- 0`, `SPHASE <- REPORT`, in the same tick (R155). -/
def State.beginReport (s : State) (acc : AccWord) : State :=
  { s with acc := some acc, txk := 0, sphase := .report }

/-- Run the decoder over `BUF[0 .. N_SAMPLES-1]` when the append made IDX = N_SAMPLES (R155). A cell that holds no
value stops the model (log entry 7); in a capture every cell has been written (R154). -/
def State.decodeIfFull (s : State) : Host.Outcome State Fault Refusal :=
  if s.idx = s.cfg.nSamples then
    match s.buf.readRange 0 s.cfg.nSamples with
    | some B => .next (s.beginReport (decodeSamples s.cfg.tol B))
    | none => .fault .unwrittenCell
  else .next s

/-- A processed tick, after the sample bit is known: mirror, arm, append, decode (R152 to R155). -/
def State.sampleTick (s : State) (sample : Bit) : Host.Outcome State Fault Refusal :=
  let s := (s.pinWrite .irmon sample).armOn sample
  if s.armed = true ∧ s.idx < s.cfg.nSamples then (s.storeSample sample).decodeIfFull
  else .next s

/-- SAMPTICK (R150): a tick in REPORT is dropped (R156). -/
def execSamptick (level : Bit) (s : State) : Host.Outcome State Fault Refusal :=
  s.whenLive fun s =>
    match s.sphase with
    | .report => .next s
    | .capture => s.sampleTick (sampleBit s.cfg level)

/-! ### TXACK -/

/-- The end of the report: IDX, ARMED, ACC, TXK and SPHASE (43_duration_decoder.md R179). -/
def State.endReport (s : State) : State :=
  { s with idx := 0, armed := false, acc := none, txk := 0, sphase := .capture }

/-- After a byte is taken: the fifth ends the report, any other moves TXK on (R178). -/
def State.afterByte (s : State) : State :=
  if s.txk = 4 then s.endReport else { s with txk := s.txk + 1 }

/-- TXACK (R178): the channel takes the offered byte; with none offered it is refused (R180). -/
def execTxack (s : State) : Host.Outcome State Fault Refusal :=
  s.whenLive fun s =>
    match s.sphase with
    | .capture => .next (s.refuse .txackIdle)
    | .report =>
      match s.txData with
      | some b => .next (s.emit (.tx b)).afterByte
      | none => .fault .accNone

end Sys2Proof.Machine
end

