-- ==== Sys2Proof/Machine/Dispatch.lean ====
section
/-! DEFINITION. One arm per event. -/

namespace Sys2Proof.Machine

def exec (i : Instr) (s : State) : Host.Outcome State Fault Refusal :=
  match i with
  | .wrdisp value => Sys2Proof.Machine.execWrdisp value s
  | .muxtick => Sys2Proof.Machine.execMuxtick s
  | .samptick level => Sys2Proof.Machine.execSamptick level s
  | .txack => Sys2Proof.Machine.execTxack s
  | .rdent => Sys2Proof.Machine.execRdent s
  | .reset => Sys2Proof.Machine.execReset s

end Sys2Proof.Machine
end

