-- ==== Sys2Proof/Machine/Step.lean ====
section
/-! DEFINITION. One step: the next event word of the queue is applied. -/

namespace Sys2Proof.Machine

/-- Apply one event word (00_scope.md R18): once REFUSED is set nothing happens (60_exceptions.md R203); a reserved word
is refused with its reason (30_encoding.md R75); an event runs. -/
def applyWord (w : EventWord) (s : State) : Host.Outcome State Fault Refusal :=
  s.whenLive fun s =>
    match decodeEvent w with
    | .event i => exec i s
    | .invalid r => .next (s.refuse r)

/-- One step: take the next event word and apply it. With no event waiting the block leaves the state unchanged
(60_exceptions.md R214; log entry 4). -/
def step (s : State) : Host.Outcome State Fault Refusal :=
  match s.takeEvent with
  | none => .next s
  | some (w, s') => applyWord w s'

/-- `s` with the event word `w` in front of the queue, so that the very next step applies it (log entry 3). -/
def State.withFetchWord (s : State) (nbits w : Nat) : State :=
  s.offerNext (BitVec.ofNat 16 (w % 2 ^ nbits))

end Sys2Proof.Machine
end

