-- ==== Sys2Proof/Machine/Assembler.lean ====
section
/-! DEFINITION. The assembler and the printer (30_encoding.md R78, R79, R80): a layer over event words that the block
itself does not have. Text is a list of characters. -/

namespace Sys2Proof

/-! ### From a line to its words -/

/-- The event words of a line, by the tables of R78 and R79; only a well-formed line is assembled. -/
def AsmLine.words (irActiveLow : Bit) : AsmLine → List EventWord
  | .wrdisp v => [0x1000#16 ||| BitVec.ofNat 16 v]
  | .mux => [0x2000#16]
  | .samp l => [0x3000#16 ||| BitVec.ofNat 16 l]
  | .txack => [0x4000#16]
  | .rdent => [0x5000#16]
  | .reset => [0xF000#16]
  | .word w => [BitVec.ofNat 16 w]
  | .blank => [0x10FF#16]
  | .cycle => [0x2000#16, 0x2000#16]
  | .sampl s => [0x3000#16 ||| BitVec.ofNat 16 (if irActiveLow then 1 - s else s)]
  | .rep k line => (List.replicate k (line.words irActiveLow)).flatten
  | .txall => List.replicate 5 0x4000#16

/-! ### Reading a line -/

/-- A decimal digit's value. -/
def decDigit (c : Char) : Option Nat :=
  if '0' ≤ c ∧ c ≤ '9' then some (c.toNat - 48) else none

/-- A hexadecimal digit's value, letters in either case (log entry 12). -/
def hexDigit (c : Char) : Option Nat :=
  if '0' ≤ c ∧ c ≤ '9' then some (c.toNat - 48)
  else if 'a' ≤ c ∧ c ≤ 'f' then some (c.toNat - 87)
  else if 'A' ≤ c ∧ c ≤ 'F' then some (c.toNat - 55)
  else none

/-- Digits after the value `n`, in base `base`. -/
def readDigits (digit : Char → Option Nat) (base : Nat) : Nat → List Char → Option Nat
  | n, [] => some n
  | n, c :: cs =>
    match digit c with
    | some d => readDigits digit base (base * n + d) cs
    | none => none

/-- A number: hexadecimal after `0x`, else decimal (R78). -/
def readNumber : List Char → Option Nat
  | [] => none
  | '0' :: 'x' :: cs => if cs = [] then none else readDigits hexDigit 16 0 cs
  | cs => readDigits decDigit 10 0 cs

/-- The line up to a comment, which starts with `;` (R78). -/
def dropComment (cs : List Char) : List Char := cs.takeWhile (· ≠ ';')

/-- A blank of the text. -/
def isBlank (c : Char) : Bool := c == ' ' || c == '\t'

/-- The words of a line between its blanks; `cur` is the token being read, its last character first. -/
def splitTokens (cur : List Char) : List Char → List (List Char)
  | [] => if cur = [] then [] else [cur.reverse]
  | c :: cs =>
    if isBlank c then
      if cur = [] then splitTokens [] cs else cur.reverse :: splitTokens [] cs
    else splitTokens (c :: cur) cs

/-- A line from its tokens. -/
def readTokens : List (List Char) → Option AsmLine
  | [] => none
  | op :: args =>
    if op = ['r', 'e', 'p'] then
      match args with
      | [] => none
      | k :: rest =>
        match readNumber k, readTokens rest with
        | some k, some line => some (.rep k line)
        | _, _ => none
    else
      match args with
      | [] =>
        if op = ['m', 'u', 'x'] then some .mux
        else if op = ['t', 'x', 'a', 'c', 'k'] then some .txack
        else if op = ['r', 'd', 'e', 'n', 't'] then some .rdent
        else if op = ['r', 'e', 's', 'e', 't'] then some .reset
        else if op = ['b', 'l', 'a', 'n', 'k'] then some .blank
        else if op = ['c', 'y', 'c', 'l', 'e'] then some .cycle
        else if op = ['t', 'x', 'a', 'l', 'l'] then some .txall
        else none
      | [n] =>
        match readNumber n with
        | none => none
        | some n =>
          if op = ['w', 'r', 'd', 'i', 's', 'p'] then some (.wrdisp n)
          else if op = ['s', 'a', 'm', 'p'] then some (.samp n)
          else if op = ['s', 'a', 'm', 'p', 'l'] then some (.sampl n)
          else if op = ['.', 'w', 'o', 'r', 'd'] then some (.word n)
          else none
      | _ :: _ :: _ => none
termination_by structural ts => ts

/-- The event words of one line of text: none for an assembly error (an unknown word, or an operand out of range), and
no word for a line that is blank or a comment (R78). -/
def assembleText (irActiveLow : Bit) (text : List Char) : Option (List EventWord) :=
  match splitTokens [] (dropComment text) with
  | [] => some []
  | ts =>
    match readTokens ts with
    | some line => if line.wellFormed then some (line.words irActiveLow) else none
    | none => none

/-- A program: one line a list (R78). -/
def assembleProgram (irActiveLow : Bit) : List (List Char) → Option (List EventWord)
  | [] => some []
  | l :: ls =>
    match assembleText irActiveLow l, assembleProgram irActiveLow ls with
    | some ws, some rest => some (ws ++ rest)
    | _, _ => none

/-! ### Printing -/

/-- A hexadecimal digit, upper case (log entry 12). -/
def hexChar (d : BitVec 4) : Char := Char.ofNat (if d.toNat < 10 then 48 + d.toNat else 55 + d.toNat)

/-- A byte in decimal, without leading zeros. -/
def decText (v : Byte) : List Char :=
  let n := v.toNat
  let digit (d : Nat) : Char := Char.ofNat (48 + d)
  if n < 10 then [digit n]
  else if n < 100 then [digit (n / 10), digit (n % 10)]
  else [digit (n / 100), digit (n / 10 % 10), digit (n % 10)]

/-- A legal event, spelled by the table of R78, with WRDISP's operand in decimal (R80). -/
def printEvent : Instr → List Char
  | .wrdisp v => ['w', 'r', 'd', 'i', 's', 'p', ' '] ++ decText v
  | .muxtick => ['m', 'u', 'x']
  | .samptick l => ['s', 'a', 'm', 'p', ' ', if l then '1' else '0']
  | .txack => ['t', 'x', 'a', 'c', 'k']
  | .rdent => ['r', 'd', 'e', 'n', 't']
  | .reset => ['r', 'e', 's', 'e', 't']

/-- A refusal reason as R203 spells it. -/
def printReason : RefuseReason → List Char
  | .reservedOp => ['R', 'E', 'S', 'E', 'R', 'V', 'E', 'D', '_', 'O', 'P']
  | .rsvNonzero => ['R', 'S', 'V', '_', 'N', 'O', 'N', 'Z', 'E', 'R', 'O']
  | .dataNonzero => ['D', 'A', 'T', 'A', '_', 'N', 'O', 'N', 'Z', 'E', 'R', 'O']
  | .txackIdle => ['T', 'X', 'A', 'C', 'K', '_', 'I', 'D', 'L', 'E']

/-- A reserved word: `.word 0xHHHH ; invalid <reason>` (R80). -/
def printReserved (w : EventWord) (r : RefuseReason) : List Char :=
  ['.', 'w', 'o', 'r', 'd', ' ', '0', 'x', hexChar (w.extractLsb' 12 4), hexChar (w.extractLsb' 8 4),
    hexChar (w.extractLsb' 4 4), hexChar (w.extractLsb' 0 4), ' ', ';', ' ', 'i', 'n', 'v', 'a', 'l', 'i', 'd', ' ']
    ++ printReason r

/-- The printer (R80). -/
def disassemble (w : EventWord) : List Char :=
  match decodeEvent w with
  | .event i => printEvent i
  | .invalid r => printReserved w r

end Sys2Proof
end

