-- ==== Sys2Proof/Machine/ShiftRegister.lean ====
section
/-! DEFINITION. The external display register (41_display_multiplexer.md R129): an environment agent that watches the
trace, no state of the block. PRESUMED: the spec takes it from general knowledge (log entry 13), so every claim about
lit segments names it. -/

namespace Sys2Proof.Machine

/-- The shift stage SR, the output stage OUT, and the levels of the block's pins they are driven by. -/
structure DisplayRegister where
  sr : Byte
  out : Byte
  sdata : Bit
  selL : Bit
  selR : Bit
deriving DecidableEq, Repr

/-- What the register does at a pin write: shift on a write of SCLK = 1, copy to the output on a write of LATCH = 1,
and see the level of SDATA and of the select lines (R129). -/
def DisplayRegister.onPin (d : DisplayRegister) (p : Pin) (level : Bit) : DisplayRegister :=
  match p with
  | .selL => { d with selL := level }
  | .selR => { d with selR := level }
  | .sdata => { d with sdata := level }
  | .sclk => if level = true then { d with sr := d.sr.extractLsb' 0 7 ++ BitVec.ofBool d.sdata } else d
  | .latch => if level = true then { d with out := d.sr } else d
  | .irmon => d

/-- One trace item. RESET sets the block's pins to 0 without pin items (70_reset_and_hazards.md R220); the register's
own two stages stay (log entry 13). -/
def DisplayRegister.observe (d : DisplayRegister) (t : Item) : DisplayRegister :=
  match t with
  | .pin p level => d.onPin p level
  | .tx _ => d
  | .rd _ => d
  | .rst => { d with sdata := false, selL := false, selR := false }

/-- A whole stretch of trace, the oldest item first. -/
def DisplayRegister.watch (d : DisplayRegister) (ts : List Item) : DisplayRegister := ts.foldl DisplayRegister.observe d

/-- W: SEG_POLARITY in all 8 bits (R129). -/
def polarityMask (c : Params) : Byte := if c.segPolarity then 0xFF else 0x00

/-- The lit segments, in segment-on logic: `OUT XOR W` (R129). -/
def DisplayRegister.lit (d : DisplayRegister) (c : Params) : Byte := d.out ^^^ polarityMask c

/-- Whether a position's select line is 1 in what the register saw. -/
def DisplayRegister.selected (d : DisplayRegister) (pos : Pos) : Bit :=
  match pos with
  | .left => d.selL
  | .right => d.selR

/-- What a digit position shows: the lit segments where its select line is 1, and only there (R129). -/
def DisplayRegister.shows (d : DisplayRegister) (c : Params) (pos : Pos) : Byte :=
  if d.selected pos then d.lit c else 0x00

end Sys2Proof.Machine
end

