-- ==== Sys2Proof/Safety.lean ====
section
/-! DEFINITION. What counts as a safe run, in the terms the claims use: the invariants of a state, what a final state
with REFUSED set or with a report pending says, and which fields an agent owns. -/

namespace Sys2Proof.Machine

/-- The run stayed inside the interface contract. A state whose REFUSED is set says nothing of the hardware (10_state.md
R45), so a claim about the hardware is about accepted states (log entry 5). -/
abbrev State.accepted (s : State) : Prop := s.refused = none

/-- A report is still pending: a claim must not treat it as delivered (R45). -/
abbrev State.reportPending (s : State) : Prop := s.sphase = .report

/-- The pattern register of a position. -/
def State.pattern (s : State) (pos : Pos) : Byte :=
  match pos with
  | .left => s.patL
  | .right => s.patR

/-- No select line is asserted and POS is RIGHT, as after RESET (R22, R26). -/
abbrev State.unselected (s : State) : Prop := s.selL = false ∧ s.selR = false ∧ s.pos = .right

/-- Exactly one select line is asserted, the one of POS, and SDATA holds the last bit shifted out for it (R26, R27). -/
abbrev State.selected (s : State) : Prop :=
  s.selL = s.pos.code ∧ s.selR = !s.pos.code ∧ s.sdata = wireBit s.cfg (s.pattern s.pos) 0

/-- The display half of the invariant. -/
structure State.DisplayInv (s : State) : Prop where
  /-- The entropy counter fits its width (R25). -/
  entropy_lt : s.entropy < 2 ^ s.cfg.entropyWidth
  /-- SCLK idles at 0 between events (R28). -/
  sclk_idle : s.sclk = false
  /-- LATCH idles at 0 between events (R29). -/
  latch_idle : s.latch = false
  /-- Never two select lines at once (R26; 41_display_multiplexer.md R122). -/
  select : s.unselected ∨ s.selected
  /-- Each pattern register holds the pattern of some display value (R23, R24; R128). -/
  patterns : ∀ pos, ∃ v, s.pattern pos = segPattern s.cfg v pos

/-- The sampler half of the invariant. -/
structure State.SamplerInv (s : State) : Prop where
  /-- BUF keeps its canonical form. -/
  buf_wf : s.buf.wf
  /-- No cell outside 0..N_SAMPLES-1 is ever written (R34; 20_memory.md R50). -/
  buf_range : ∀ x ∈ s.buf, x.1 < s.cfg.nSamples
  /-- Every cell below IDX has been written in this capture (42_pulse_sampler.md R154). -/
  written : ∀ i, i < s.idx → (s.buf.read i).isSome = true
  /-- ARMED = 0 means that nothing is stored (R153). -/
  unarmed : s.armed = false → s.idx = 0
  /-- ARMED = 1 means that the arming sample is stored, as BUF[0] = 1 (R153, R158). -/
  armed : s.armed = true → 0 < s.idx ∧ s.buf.read 0 = some true
  /-- In CAPTURE: IDX < N_SAMPLES, ACC is none, TXK = 0 (R32, R35, R36). -/
  capture : s.sphase = .capture → s.idx < s.cfg.nSamples ∧ s.acc = none ∧ s.txk = 0
  /-- In REPORT: IDX = N_SAMPLES, and ACC is the decode of the buffer (R32, R35; R155). -/
  report : s.sphase = .report → s.idx = s.cfg.nSamples ∧
    ∃ B, s.buf.readRange 0 s.cfg.nSamples = some B ∧ s.acc = some (decodeSamples s.cfg.tol B)

/-- The invariant of the machine: legal parameters (00_scope.md R5, R12) and both halves. -/
structure State.Inv (s : State) : Prop where
  params : s.cfg.legal
  display : s.DisplayInv
  sampler : s.SamplerInv

/-- The samples that the trace shows on IRMON, the oldest first (42_pulse_sampler.md R152). -/
def irmonSample : Item → Option Bit
  | .pin .irmon b => some b
  | _ => none

/-- The last IDX samples mirrored on IRMON are exactly BUF[0 .. IDX-1]: the buffer holds the samples of the processed
ticks from the arming tick on, in order (42_pulse_sampler.md R158). -/
def State.BufferIsMirror (s : State) : Prop :=
  ∃ before B, s.trace.filterMap irmonSample = before ++ B ∧ B.length = s.idx ∧ s.buf.readRange 0 s.idx = some B

/-- What one trace item does to the level of a pin: a write sets it, and a reset sets it to 0 (10_state.md R44;
70_reset_and_hazards.md R220). -/
def levelStep (p : Pin) (level : Bit) (t : Item) : Bit :=
  match t with
  | .pin q v => if q = p then v else level
  | .tx _ => level
  | .rd _ => level
  | .rst => false

/-- The level a trace leaves on a pin that was at `level` before it. -/
def levelAfter (p : Pin) (level : Bit) (ts : List Item) : Bit := ts.foldl (levelStep p) level

/-- The trace says what every output pin register holds (R17, R44). -/
def State.PinsFollowTrace (s : State) : Prop := ∀ p, s.pinLevel p = levelAfter p false s.trace

/-- `T(q, p)`: the 28 trace items of one MUXTICK that services position `q` with pattern `p`, 2 select writes, 3 writes
for each of the 8 bits, 2 latch writes (41_display_multiplexer.md R127). -/
def tickItems (c : Params) (q : Pos) (p : Byte) : List Item :=
  [.pin q.other.selectPin false, .pin q.selectPin true] ++
    (List.range 8).flatMap (fun j => [.pin .sdata (wireBit c p (7 - j)), .pin .sclk true, .pin .sclk false]) ++
    [.pin .latch true, .pin .latch false]

/-- The fields only MUXTICK writes (10_state.md R47), equal in two states. -/
def State.sameDisplay (s t : State) : Prop :=
  t.pos = s.pos ∧ t.patL = s.patL ∧ t.patR = s.patR ∧ t.entropy = s.entropy ∧ t.selL = s.selL ∧ t.selR = s.selR ∧
    t.sdata = s.sdata ∧ t.sclk = s.sclk ∧ t.latch = s.latch

/-- The fields only SAMPTICK and TXACK write (R47), equal in two states. -/
def State.sameSampler (s t : State) : Prop :=
  t.sphase = s.sphase ∧ t.armed = s.armed ∧ t.idx = s.idx ∧ t.buf = s.buf ∧ t.acc = s.acc ∧ t.txk = s.txk ∧
    t.irmon = s.irmon

/-- How many 0→1 transitions a sequence of samples has after a sample `prev`: as many bits are decoded
(43_duration_decoder.md R173). -/
def risingEdges (prev : Bit) : List Bit → Nat
  | [] => 0
  | b :: rest => (if prev = false ∧ b = true then 1 else 0) + risingEdges b rest

/-- A run of `m` ones and then `n` zeros: one mark and its space (R174). -/
def markSpace (m n : Nat) : List Bit := List.replicate m true ++ List.replicate n false

/-- The event word of one sample tick that carries the logical sample `b` (R151; 30_encoding.md R79, `sampl`). -/
def sampleWord (c : Params) (b : Bit) : EventWord := encode (.samptick (if c.irActiveLow then !b else b))

end Sys2Proof.Machine
end

