-- ==== Sys2Proof/Certificates/Slice0/Obligations.lean ====
section
/-! DEFINITION. The statements for the provers. A state is LIVE when its REFUSED is none; a state with REFUSED set says
nothing of the hardware (10_state.md R45). -/

open Sys2Proof Sys2Proof.Machine

/-! ### Event words -/

/-- 30_encoding.md R74, in arithmetic on the word's number: the decoder is total, and the reasons are checked in the order
RESERVED_OP, RSV_NONZERO, DATA_NONZERO. -/
def Obligations.DecoderChecksReasonsInOrder : Prop :=
  ∀ w : EventWord, decodeEvent w =
    if w.toNat / 4096 = 0 ∨ (6 ≤ w.toNat / 4096 ∧ w.toNat / 4096 ≤ 14) then .invalid .reservedOp
    else if w.toNat / 256 % 16 ≠ 0 then .invalid .rsvNonzero
    else if w.toNat / 4096 = 1 then .event (.wrdisp (BitVec.ofNat 8 (w.toNat % 256)))
    else if w.toNat / 4096 = 3 then
      if w.toNat % 256 < 2 then .event (.samptick (decide (w.toNat % 2 = 1))) else .invalid .dataNonzero
    else if w.toNat % 256 ≠ 0 then .invalid .dataNonzero
    else if w.toNat / 4096 = 2 then .event .muxtick
    else if w.toNat / 4096 = 4 then .event .txack
    else if w.toNat / 4096 = 5 then .event .rdent
    else .event .reset

/-- 30_encoding.md R72, by the rows of the opcode table: the words of each event are exactly the ones its match and mask
select, and its operand is the bits the format gives it. -/
def Obligations.FormatsGiveEventsAndOperands : Prop :=
  ∀ w : EventWord,
    (∀ v, decodeEvent w = .event (.wrdisp v) ↔ w &&& 0xFF00 = 0x1000 ∧ v = w.setWidth 8) ∧
    (decodeEvent w = .event .muxtick ↔ w &&& 0xFFFF = 0x2000) ∧
    (∀ l, decodeEvent w = .event (.samptick l) ↔ w &&& 0xFFFE = 0x3000 ∧ l = w.getLsbD 0) ∧
    (decodeEvent w = .event .txack ↔ w &&& 0xFFFF = 0x4000) ∧
    (decodeEvent w = .event .rdent ↔ w &&& 0xFFFF = 0x5000) ∧
    (decodeEvent w = .event .reset ↔ w &&& 0xFFFF = 0xF000)

/-- Decoding inverts encoding for every event at every operand, and a word that decodes to an event is its encoding
(30_encoding.md R71, R72, R74). -/
def Obligations.DecodeAndEncodeAgree : Prop :=
  (∀ i : Instr, i.wellFormed = true → decodeEvent (encode i) = .event i) ∧
    ∀ (w : EventWord) (i : Instr), decodeEvent w = .event i → w = encode i

/-- 30_encoding.md R76: 262 of the 65536 words are legal. -/
def Obligations.LegalWordsAre262 : Prop :=
  (Finset.univ.filter fun w : EventWord => legalWord w = true).card = 262

/-- Words written out from 30_encoding.md R72 decode to the events they stand for (V-ENC-1, 4, 5, 6, 8, 9, 10, 11). -/
def Obligations.WrittenWordsDecode : Prop :=
  decodeEvent 0b0001000000101111 = .event (.wrdisp 47) ∧ decodeEvent 0b0010000000000000 = .event .muxtick ∧
    decodeEvent 0b0011000000000000 = .event (.samptick false) ∧
    decodeEvent 0b0011000000000001 = .event (.samptick true) ∧ decodeEvent 0b0100000000000000 = .event .txack ∧
    decodeEvent 0b0101000000000000 = .event .rdent ∧ decodeEvent 0b1111000000000000 = .event .reset ∧
    decodeEvent 0x0000 = .invalid .reservedOp

/-- 30_encoding.md R80: printing a word and assembling it back gives the same word. For a legal word the rule says so; for
a reserved word it is the model's choice that the assembler reads `.word` (log entry 12). -/
def Obligations.PrintThenAssembleGivesTheWord : Prop :=
  ∀ (low : Bit) (w : EventWord), assembleText low (disassemble w) = some [w]

/-- 30_encoding.md R79: the expansions of the pseudo-instructions. -/
def Obligations.PseudoInstructionsExpand : Prop :=
  ∀ low : Bit,
    AsmLine.blank.words low = (AsmLine.wrdisp 0xFF).words low ∧
    AsmLine.cycle.words low = AsmLine.mux.words low ++ AsmLine.mux.words low ∧
    (∀ s, s ≤ 1 → (AsmLine.sampl s).words low = (AsmLine.samp (if low then 1 - s else s)).words low) ∧
    (∀ k line, 1 ≤ k → (AsmLine.rep k line).words low = (List.replicate k (line.words low)).flatten) ∧
    AsmLine.txall.words low = (AsmLine.rep 5 .txack).words low ∧
    (AsmLine.sampl 1).words true = [0x3000] ∧ (AsmLine.sampl 0).words true = [0x3001]

/-- The words the assembler's table gives (30_encoding.md R78) are the encoder's words of the same events (R72), for every
operand in range. -/
def Obligations.AssemblerAgreesWithEncoder : Prop :=
  ∀ low : Bit,
    (∀ v, v ≤ 255 → (AsmLine.wrdisp v).words low = [encode (.wrdisp (BitVec.ofNat 8 v))]) ∧
    AsmLine.mux.words low = [encode .muxtick] ∧
    (∀ l, l ≤ 1 → (AsmLine.samp l).words low = [encode (.samptick (decide (l = 1)))]) ∧
    AsmLine.txack.words low = [encode .txack] ∧ AsmLine.rdent.words low = [encode .rdent] ∧
    AsmLine.reset.words low = [encode .reset]

/-! ### The step -/

/-- A step takes the next event word off the queue. In a live state it runs exactly the event the word decodes to, and a
reserved word sets REFUSED to its reason and does nothing else (00_scope.md R18, 30_encoding.md R75, 60_exceptions.md
R203); in a refused state the word, whatever it is, has no effect (R203). A word offered in front of the queue is the one
the next step takes; with no event waiting the state is left unchanged (R214). The queue is the model's own, log entries 3
and 4. -/
def Obligations.StepRunsTheDecodedEvent : Prop :=
  (∀ (s : State) w rest i, s.events = w :: rest → s.refused = none → decodeEvent w = .event i →
      step s = exec i { s with events := rest }) ∧
    (∀ (s : State) w rest r, s.events = w :: rest → s.refused = none → decodeEvent w = .invalid r →
      step s = .next { s with events := rest, refused := some r }) ∧
    (∀ (s : State) w rest, s.events = w :: rest → s.refused ≠ none → step s = .next { s with events := rest }) ∧
    (∀ (s : State) n i, n < 65536 → s.refused = none → decodeEvent (BitVec.ofNat 16 n) = .event i →
      step (s.withFetchWord 16 n) = exec i s) ∧
    (∀ (s : State) n r, n < 65536 → s.refused = none → decodeEvent (BitVec.ofNat 16 n) = .invalid r →
      step (s.withFetchWord 16 n) = .next { s with refused := some r }) ∧
    (∀ (s : State) n, s.refused ≠ none → step (s.withFetchWord 16 n) = .next s) ∧
    ∀ s : State, s.events = [] → step s = .next s

/-- 60_exceptions.md R203: a refusal sets REFUSED and has no other effect, for each reason of the closed list; the decoder
gives each of its three reasons exactly on its condition, where no condition before it in the order of 30_encoding.md R74
holds, DATA_NONZERO by format (R72: DATA[7:1] for OP 3, all of DATA for OP 2, 4, 5 and 0xF, no bit for OP 1), and never
TXACK_IDLE; once REFUSED is set, every later event, RESET included, leaves the state and the trace unchanged; and nothing
else sets it. -/
def Obligations.RefusalMarksAndFreezes : Prop :=
  (∀ (s : State) w r, s.refused = none → decodeEvent w = .invalid r →
      applyWord w s = .next { s with refused := some r }) ∧
    (∀ w, (decodeEvent w = .invalid .reservedOp ↔ opField w ∈ reservedOps) ∧
      (decodeEvent w = .invalid .rsvNonzero ↔ opField w ∉ reservedOps ∧ rsvField w ≠ 0) ∧
      (decodeEvent w = .invalid .dataNonzero ↔ opField w ∉ reservedOps ∧ rsvField w = 0 ∧
        ((opField w = 0x3 ∧ (dataField w).extractLsb' 1 7 ≠ 0) ∨
          (opField w ∈ [0x2#4, 0x4#4, 0x5#4, 0xF#4] ∧ dataField w ≠ 0))) ∧
      decodeEvent w ≠ .invalid .txackIdle) ∧
    (∀ s : State, s.refused = none → s.sphase = .capture →
      exec .txack s = .next { s with refused := some .txackIdle }) ∧
    (∀ (s : State) i, s.refused ≠ none → exec i s = .next s) ∧
    (∀ (s : State) w, s.refused ≠ none → applyWord w s = .next s) ∧
    ∀ (s t : State) i, s.refused = none → exec i s = .next t → t.refused ≠ none →
      i = .txack ∧ s.sphase = .capture ∧ t.refused = some .txackIdle

/-- 70_reset_and_hazards.md R224: the build parameters are fixed, no event changes them. -/
def Obligations.EventsKeepParameters : Prop :=
  ∀ (i : Instr) (s t : State), exec i s = .next t → t.cfg = s.cfg

/-- The trace only grows, RESET included, and each event appends the number of items its rule gives: none for WRDISP, 28
for MUXTICK, one for SAMPTICK when processed and none when dropped, one for TXACK, RDENT and RESET (41_display_multiplexer.md
R120, R127, R126; 42_pulse_sampler.md R150; 43_duration_decoder.md R178; 70_reset_and_hazards.md R220). The queue of the
events after it, the model's own field (log entry 3), stays. -/
def Obligations.TraceGrowsByTheEventsItems : Prop :=
  ∀ (i : Instr) (s t : State), s.refused = none → exec i s = .next t →
    t.events = s.events ∧ ∃ items, t.trace = s.trace ++ items ∧ items.length =
      match i with
      | .wrdisp _ => 0
      | .muxtick => 28
      | .samptick _ => if s.sphase = .capture then 1 else 0
      | .txack => if s.sphase = .report then 1 else 0
      | .rdent => 1
      | .reset => 1

/-! ### The display events -/

/-- 41_display_multiplexer.md R120: WRDISP sets DISPVAL to any 8-bit value, and nothing else happens. -/
def Obligations.WrdispSetsDispvalOnly : Prop :=
  ∀ (v : Byte) (s : State),
    encode (.wrdisp v) = 0x1000#16 ||| v.setWidth 16 ∧
      (s.refused = none → exec (.wrdisp v) s = .next { s with dispval := v })

/-- 41_display_multiplexer.md R121: the whole effect of one multiplex tick, in every live state. -/
def Obligations.MuxtickServicesTheOtherDigit : Prop :=
  encode .muxtick = 0x2000#16 ∧
  ∀ s : State, s.refused = none →
    (s.pos = .right → exec .muxtick s = .next
      { s with
        pos := .left, patL := segEncode s.cfg (digitOf s.dispval .left), selL := true, selR := false,
        sdata := (segEncode s.cfg (digitOf s.dispval .left)).getLsbD 0 ^^ s.cfg.segPolarity, sclk := false, latch := false,
        entropy := (s.entropy + 1) % 2 ^ s.cfg.entropyWidth,
        trace := s.trace ++ tickItems s.cfg .left (segEncode s.cfg (digitOf s.dispval .left)) }) ∧
    (s.pos = .left → exec .muxtick s = .next
      { s with
        pos := .right, patR := segEncode s.cfg (digitOf s.dispval .right), selL := false, selR := true,
        sdata := (segEncode s.cfg (digitOf s.dispval .right)).getLsbD 0 ^^ s.cfg.segPolarity, sclk := false,
        latch := false, entropy := (s.entropy + 1) % 2 ^ s.cfg.entropyWidth,
        trace := s.trace ++ tickItems s.cfg .right (segEncode s.cfg (digitOf s.dispval .right)) })

/-- 41_display_multiplexer.md R127 by item number: the 28 items of a tick, the pattern's bits most significant first and
XORed with SEG_POLARITY, and the pins after it. -/
def Obligations.MuxtickItemsByNumber : Prop :=
  ∀ s : State, s.refused = none → ∃ (t : State) (T : List Item) (p : Byte),
    exec .muxtick s = .next t ∧ t.trace = s.trace ++ T ∧ p = segEncode s.cfg (digitOf s.dispval t.pos) ∧ T.length = 28 ∧
    (t.pos = .left → T[0]? = some (.pin .selR false) ∧ T[1]? = some (.pin .selL true)) ∧
    (t.pos = .right → T[0]? = some (.pin .selL false) ∧ T[1]? = some (.pin .selR true)) ∧
    (∀ j, j < 8 → T[2 + 3 * j]? = some (.pin .sdata (p.getLsbD (7 - j) ^^ s.cfg.segPolarity)) ∧
      T[3 + 3 * j]? = some (.pin .sclk true) ∧ T[4 + 3 * j]? = some (.pin .sclk false)) ∧
    T[26]? = some (.pin .latch true) ∧ T[27]? = some (.pin .latch false) ∧
    t.sclk = false ∧ t.latch = false ∧ t.sdata = (p.getLsbD 0 ^^ s.cfg.segPolarity)

/-- 41_display_multiplexer.md R131: MUXTICK has a step in every state whose REFUSED is none, and is never refused. -/
def Obligations.MuxtickNeverBlocks : Prop :=
  ∀ s : State, s.refused = none → ∃ t, exec .muxtick s = .next t ∧ t.refused = none

/-- 10_state.md R26: after any MUXTICK exactly the select line of POS is 1; only MUXTICK and RESET write the select lines;
RESET leaves both 0. -/
def Obligations.OneSelectLinePerTick : Prop :=
  (∀ s t : State, s.refused = none → exec .muxtick s = .next t →
      (t.selL = true ↔ t.pos = .left) ∧ (t.selR = true ↔ t.pos = .right)) ∧
    (∀ (i : Instr) (s t : State), i ≠ .muxtick → i ≠ .reset → exec i s = .next t →
      t.selL = s.selL ∧ t.selR = s.selR) ∧
    (∀ s t : State, s.refused = none → exec .reset s = .next t → t.selL = false ∧ t.selR = false) ∧
    State.reset.selL = false ∧ State.reset.selR = false

/-- 41_display_multiplexer.md R125: each MUXTICK adds 1 to ENTROPY modulo 2^ENTROPY_WIDTH, and no other event changes it
except RESET. -/
def Obligations.EntropyCountsTicksOnly : Prop :=
  (∀ s t : State, s.refused = none → exec .muxtick s = .next t →
      t.entropy = (s.entropy + 1) % 2 ^ s.cfg.entropyWidth) ∧
    (∀ (i : Instr) (s t : State), i ≠ .muxtick → i ≠ .reset → exec i s = .next t → t.entropy = s.entropy) ∧
    ∀ s t : State, s.refused = none → exec .reset s = .next t → t.entropy = 0

/-- 41_display_multiplexer.md R126: RDENT appends rd(ENTROPY) and writes no state. -/
def Obligations.RdentOnlyReportsEntropy : Prop :=
  encode .rdent = 0x5000#16 ∧
    ∀ s : State, s.refused = none → exec .rdent s = .next { s with trace := s.trace ++ [.rd s.entropy] }

/-- 20_memory.md R60 for the host's two accesses: a second equal WRDISP changes nothing, and a second RDENT returns the
same value. -/
def Obligations.HostAccessesAreIdempotent : Prop :=
  (∀ (v : Byte) (s : State), ∃ t, exec (.wrdisp v) s = .next t ∧ exec (.wrdisp v) t = .next t) ∧
    ∀ s : State, s.refused = none → ∃ t u, exec .rdent s = .next t ∧ exec .rdent t = .next u ∧
      u.trace = s.trace ++ [.rd s.entropy, .rd s.entropy]

/-- 40_segment_encoder.md R100, R102: SEG_TABLE for 0..9, the blank pattern 0x00 for everything else. -/
def Obligations.EncoderIsTotal : Prop :=
  ∀ c : Params, (∀ (d : Nat) (h : d < 10), segEncode c (.num d) = c.segTable[d]) ∧
    (∀ d, 10 ≤ d → segEncode c (.num d) = 0x00) ∧ segEncode c .blank = 0x00

/-- 40_segment_encoder.md R104: the tens digit on the left, the units digit on the right, a leading zero shown, and BLANK
on both for 100..255. -/
def Obligations.DisplayValueSplitsIntoDigits : Prop :=
  ∀ v : Byte,
    (v.toNat ≤ 99 → ∃ a b, digitOf v .left = .num a ∧ digitOf v .right = .num b ∧ a < 10 ∧ b < 10 ∧
      v.toNat = 10 * a + b) ∧
    (100 ≤ v.toNat → digitOf v .left = .blank ∧ digitOf v .right = .blank)

/-- With a legal SEG_TABLE (40_segment_encoder.md R101) the two patterns tell any two values in 0..99 apart, and they are
blank exactly for 100..255 (R105). -/
def Obligations.PatternsTellValuesApart : Prop :=
  ∀ c : Params, c.segTableLegal →
    (∀ v w : Byte, v.toNat ≤ 99 → w.toNat ≤ 99 → segPattern c v .left = segPattern c w .left →
      segPattern c v .right = segPattern c w .right → v = w) ∧
    ∀ (v : Byte) (pos : Pos), segPattern c v pos = 0x00 ↔ 100 ≤ v.toNat

/-- 41_display_multiplexer.md R128: a tick sets the pattern register of the position it services from the current DISPVAL;
it keeps that value until the next tick that services it or a RESET; after two ticks with no WRDISP between them both
registers show DISPVAL. -/
def Obligations.PatternRegistersShowDispval : Prop :=
  (∀ s t : State, s.refused = none → exec .muxtick s = .next t →
      t.pattern t.pos = segEncode s.cfg (digitOf s.dispval t.pos) ∧ t.pattern s.pos = s.pattern s.pos ∧ t.pos ≠ s.pos) ∧
    (∀ (i : Instr) (s t : State) (q : Pos), i ≠ .muxtick → i ≠ .reset → exec i s = .next t →
      t.pattern q = s.pattern q) ∧
    (∀ (s t : State) (q : Pos), s.refused = none → exec .reset s = .next t → t.pattern q = 0x00) ∧
    ∀ s : State, s.refused = none → ∃ t u, exec .muxtick s = .next t ∧ exec .muxtick t = .next u ∧
      u.patL = segEncode s.cfg (digitOf s.dispval .left) ∧ u.patR = segEncode s.cfg (digitOf s.dispval .right)

/-- 70_reset_and_hazards.md R226: a WRDISP between the tick that services LEFT and the tick that services RIGHT leaves the
tens digit of the old value beside the units digit of the new one. -/
def Obligations.WriteBetweenTicksTearsTheDisplay : Prop :=
  ∀ (s : State) (w : Byte), s.refused = none → s.pos = .right →
    ∃ t u x, exec .muxtick s = .next t ∧ exec (.wrdisp w) t = .next u ∧ exec .muxtick u = .next x ∧
      x.patL = segEncode s.cfg (digitOf s.dispval .left) ∧ x.patR = segEncode s.cfg (digitOf w .right)

/-- 41_display_multiplexer.md R130: MUXTICK reads and writes none of the sampler's state, and behaves the same in CAPTURE
and in REPORT: whatever the sampler's fields hold, the tick leaves them and does the same to the rest. -/
def Obligations.MuxtickIgnoresTheSampler : Prop :=
  ∀ (s : State) (ph : Phase) (ar : Bit) (ix : Nat) (bf : Memory) (ac : Option AccWord) (tk : Fin reportBytes) (im : Bit),
    ∃ t, exec .muxtick s = .next t ∧ s.sameSampler t ∧
      exec .muxtick { s with sphase := ph, armed := ar, idx := ix, buf := bf, acc := ac, txk := tk, irmon := im } =
        .next { t with sphase := ph, armed := ar, idx := ix, buf := bf, acc := ac, txk := tk, irmon := im }

/-- The other half of the independence (10_state.md R47): SAMPTICK and TXACK read and write none of the display's fields. -/
def Obligations.SamplerIgnoresTheDisplay : Prop :=
  ∀ (i : Instr) (s t : State) (dv : Byte) (po : Pos) (pl pr : Byte) (en : Nat) (sl sr sd sc la : Bit),
    i.agent = .samptimer ∨ i.agent = .serial → exec i s = .next t →
      t.dispval = s.dispval ∧ s.sameDisplay t ∧
      exec i { s with dispval := dv, pos := po, patL := pl, patR := pr, entropy := en, selL := sl, selR := sr,
                      sdata := sd, sclk := sc, latch := la } =
        .next { t with dispval := dv, pos := po, patL := pl, patR := pr, entropy := en, selL := sl, selR := sr,
                       sdata := sd, sclk := sc, latch := la }

/-! ### The sampler events -/

/-- 42_pulse_sampler.md R156: a SAMPTICK in REPORT has no effect, in every state. -/
def Obligations.SampleTickInReportIsDropped : Prop :=
  ∀ (l : Bit) (s : State), s.sphase = .report → exec (.samptick l) s = .next s

/-- 42_pulse_sampler.md R151, R152, R153: with ARMED = 0, a pin level that is no active sample only mirrors the sample 0;
nothing is stored. -/
def Obligations.IdleSampleIsOnlyMirrored : Prop :=
  ∀ (l : Bit) (s : State), s.refused = none → s.sphase = .capture → s.armed = false → l = s.cfg.irActiveLow →
    exec (.samptick l) s = .next { s with irmon := false, trace := s.trace ++ [.pin .irmon false] }

/-- 42_pulse_sampler.md R150 to R154, a tick that stores and does not fill the buffer: the sample is NOT L when
IR_ACTIVE_LOW, else L; it is mirrored; the first active sample arms and is itself stored; BUF[IDX] gets it and IDX grows by
one. -/
def Obligations.ArmedSampleIsStored : Prop :=
  ∀ (l b : Bit) (s : State), s.refused = none → s.sphase = .capture → b = (if s.cfg.irActiveLow then !l else l) →
    (s.armed = true ∨ b = true) → s.idx + 1 < s.cfg.nSamples →
    exec (.samptick l) s = .next
      { s with irmon := b, armed := true, buf := s.buf.write s.idx b, idx := s.idx + 1,
               trace := s.trace ++ [.pin .irmon b] }

/-- 42_pulse_sampler.md R155: the tick whose append makes IDX = N_SAMPLES runs the decoder over BUF[0..N_SAMPLES-1], stores
the result in ACC, sets TXK = 0 and SPHASE = REPORT, itself. Every cell below IDX holds a value (R154). -/
def Obligations.FillingSampleStartsTheReport : Prop :=
  ∀ (l b : Bit) (s : State) (B : List Bit), s.refused = none → s.sphase = .capture →
    b = (if s.cfg.irActiveLow then !l else l) → (s.armed = true ∨ b = true) → s.idx + 1 = s.cfg.nSamples →
    s.buf.readRange 0 s.idx = some B →
    exec (.samptick l) s = .next
      { s with irmon := b, armed := true, buf := s.buf.write s.idx b, idx := s.idx + 1,
               acc := some (decodeSamples s.cfg.tol (B ++ [b])), txk := 0, sphase := .report,
               trace := s.trace ++ [.pin .irmon b] }

/-- 42_pulse_sampler.md R154: no tick writes BUF[IDX] when IDX is N_SAMPLES or more, in every state, those no run reaches
included. -/
def Obligations.FullBufferIsNeverWritten : Prop :=
  ∀ (l : Bit) (s : State), s.cfg.nSamples ≤ s.idx →
    ∃ t, exec (.samptick l) s = .next t ∧ t.buf = s.buf ∧ t.idx = s.idx

/-- 20_memory.md R50, cell by cell: SAMPTICK changes no cell but the one at IDX, RESET leaves every cell without a value,
and every other event leaves every cell. -/
def Obligations.OnlyTheCellAtIdxIsWritten : Prop :=
  (∀ (l : Bit) (s t : State) (i : Nat), exec (.samptick l) s = .next t → i ≠ s.idx → t.buf.read i = s.buf.read i) ∧
    (∀ (e : Instr) (s t : State) (i : Nat), e.agent ≠ .samptimer → e ≠ .reset → exec e s = .next t →
      t.buf.read i = s.buf.read i) ∧
    ∀ (s t : State) (i : Nat), s.refused = none → exec .reset s = .next t → t.buf.read i = none

/-- 10_state.md R31: SAMPTICK sets ARMED on the first active sample, the fifth TXACK and RESET clear it, nothing else
changes it, and it is 0 at reset. -/
def Obligations.ArmedChangesAreTheListedOnes : Prop :=
  (∀ s t : State, s.refused = none → s.sphase = .capture → exec (.samptick (!s.cfg.irActiveLow)) s = .next t →
      t.armed = true) ∧
    (∀ s t : State, s.refused = none → s.sphase = .report → s.txk = 4 → exec .txack s = .next t → t.armed = false) ∧
    (∀ s t : State, s.refused = none → exec .reset s = .next t → t.armed = false) ∧
    (∀ (i : Instr) (s t : State), exec i s = .next t → s.armed = true → t.armed = false →
      i = .reset ∨ (i = .txack ∧ s.sphase = .report ∧ s.txk = 4)) ∧
    (∀ (i : Instr) (s t : State), exec i s = .next t → s.armed = false → t.armed = true →
      s.sphase = .capture ∧ i = .samptick (!s.cfg.irActiveLow)) ∧
    State.reset.armed = false

/-- 43_duration_decoder.md R178: TXACK in REPORT takes byte TXK of ACC, ACC[8*TXK+7 : 8*TXK]; the fifth also resets
IDX, ARMED, ACC and TXK and returns to CAPTURE. In CAPTURE it is refused (R180). -/
def Obligations.TxackTakesOneReportByte : Prop :=
  encode .txack = 0x4000#16 ∧
  (∀ (s : State) (a : AccWord), s.refused = none → s.sphase = .report → s.acc = some a → s.txk ≠ 4 →
    exec .txack s = .next
      { s with txk := s.txk + 1, trace := s.trace ++ [.tx (BitVec.ofNat 8 (a.toNat / 2 ^ (8 * s.txk.val)))] }) ∧
  (∀ (s : State) (a : AccWord), s.refused = none → s.sphase = .report → s.acc = some a → s.txk = 4 →
    exec .txack s = .next
      { s with idx := 0, armed := false, acc := none, txk := 0, sphase := .capture,
               trace := s.trace ++ [.tx (BitVec.ofNat 8 (a.toNat / 2 ^ 32))] }) ∧
  ∀ s : State, s.refused = none → s.sphase = .capture → exec .txack s = .next { s with refused := some .txackIdle }

/-- 10_state.md R43: TX_VALID is 1 exactly in REPORT; TX_DATA is then the report byte that TXACK takes, and has no value
otherwise. -/
def Obligations.OfferedByteIsTheOneTaken : Prop :=
  ∀ s : State, s.Inv →
    (s.txValid = true ↔ s.sphase = .report) ∧ (s.txData.isSome = true ↔ s.sphase = .report) ∧
    ∀ b, s.refused = none → s.txData = some b → ∃ t, exec .txack s = .next t ∧ t.trace = s.trace ++ [.tx b]

/-- 20_memory.md R54: five TXACKs send ACC[7:0], ACC[15:8], ACC[23:16], ACC[31:24], ACC[39:32] in that order and end the
report; ACC[63:40] is never sent. -/
def Obligations.FiveTxacksSendTheLowFortyBits : Prop :=
  ∀ (s : State) (a : AccWord) (rest : List EventWord), s.refused = none → s.sphase = .report → s.acc = some a →
    s.txk = 0 → s.events = List.replicate 5 0x4000#16 ++ rest →
    core.run 5 s = .next
      { s with idx := 0, armed := false, acc := none, txk := 0, sphase := .capture, events := rest,
               trace := s.trace ++ [.tx (a.extractLsb' 0 8), .tx (a.extractLsb' 8 8), .tx (a.extractLsb' 16 8),
                 .tx (a.extractLsb' 24 8), .tx (a.extractLsb' 32 8)] }

/-- 43_duration_decoder.md R181: while no TXACK and no RESET arrives, a sampler in REPORT stays as it is, however many
other events (reserved words among them) are applied. -/
def Obligations.UnacceptedReportStaysPending : Prop :=
  ∀ (k : Nat) (s : State), s.sphase = .report → (∀ w ∈ s.events, w ≠ 0x4000#16 ∧ w ≠ 0xF000#16) →
    ∃ t : State, core.run k s = .next t ∧ s.sameSampler t

/-! ### The duration decoder -/

/-- 43_duration_decoder.md R171: one mark of m, one space of n and a terminating mark decode to 1 if and only if m exceeds
n by strictly more than TOL; a tie decodes to 0 for every TOL. -/
def Obligations.PairDecodesByStrictExcess : Prop :=
  ∀ tol m n : Nat, 1 ≤ m → 1 ≤ n →
    decodeSamples tol (markSpace m n ++ [true]) = if m > n + tol then 1 else 0

/-- 43_duration_decoder.md R174, the closed form: for k marks M_1 .. M_k with the spaces S_1 .. S_(k-1) between them, a
leading space and a trailing space of any length, the result is the sum over j = 1 .. k-1 of c_j 2^(k-1-j), modulo 2^64,
with c_j = [M_j > S_j + TOL]; with no mark it is 0. -/
def Obligations.DecodeHasTheClosedForm : Prop :=
  ∀ (tol lead last trail : Nat) (runs : List (Nat × Nat)), 1 ≤ last → (∀ r ∈ runs, 1 ≤ r.1 ∧ 1 ≤ r.2) →
    decodeSamples tol (List.replicate lead false ++ runs.flatMap (fun r => markSpace r.1 r.2) ++ markSpace last trail) =
      BitVec.ofNat 64 (∑ j : Fin runs.length,
        (if runs[j].1 > runs[j].2 + tol then 1 else 0) * 2 ^ (runs.length - 1 - j.val)) ∧
    decodeSamples tol (List.replicate lead false) = 0

/-- 43_duration_decoder.md R183, the round trip: the buffer built from the bits P (at most 64), padded with zeros or with
ones to N_SAMPLES, decodes to the value of P, and the five report bytes carry its low 40 bits. -/
def Obligations.RoundTripOfUpTo64Bits : Prop :=
  ∀ (tol n : Nat) (P : List Bit) (runs : List (Nat × Nat)) (last zeros : Nat) (B : List Bit),
    P.length ≤ 64 →
    List.Forall₂ (fun p r => 1 ≤ r.1 ∧ 1 ≤ r.2 ∧ (p = true ↔ r.1 > r.2 + tol)) P runs → 1 ≤ last →
    B = runs.flatMap (fun r => markSpace r.1 r.2) ++ List.replicate last true ++ List.replicate zeros false →
    B.length = n →
    (decodeSamples tol B).toNat = P.foldl (fun v p => 2 * v + p.toNat) 0 ∧
      (reportByte (decodeSamples tol B) 4 ++ reportByte (decodeSamples tol B) 3 ++ reportByte (decodeSamples tol B) 2 ++
          reportByte (decodeSamples tol B) 1 ++ reportByte (decodeSamples tol B) 0 : BitVec 40).toNat =
        P.foldl (fun v p => 2 * v + p.toNat) 0 % 2 ^ 40

/-- 43_duration_decoder.md R175: a scan that starts with prev = B[0], and so skips c_0, returns the same value. -/
def Obligations.StartingSampleIsUnobservable : Prop :=
  ∀ (tol : Nat) (b : Bit) (B : List Bit),
    (scanSamples tol { Scan.init with prev := b } (b :: B)).acc = decodeSamples tol (b :: B)

/-- 43_duration_decoder.md R177: at most ceil(N/2) bits are decoded from N samples, and the first of them is always 0, so
the value has no more bits than the others. -/
def Obligations.AtMostHalfTheSamplesDecode : Prop :=
  ∀ (tol : Nat) (B : List Bit), risingEdges false B ≤ (B.length + 1) / 2 ∧
    (decodeSamples tol B).toNat < 2 ^ (risingEdges false B - 1)

/-! ### RESET -/

/-- 70_reset_and_hazards.md R220: RESET puts every register in its reset state and appends rst; the trace is not cleared. -/
def Obligations.ResetPutsEveryRegister : Prop :=
  encode .reset = 0xF000#16 ∧
  (∀ s : State, s.refused = none → exec .reset s = .next
    { s with
      dispval := 0xFF, pos := .right, patL := 0x00, patR := 0x00, entropy := 0, selL := false, selR := false,
      sdata := false, sclk := false, latch := false, sphase := .capture, armed := false, idx := 0, buf := [],
      acc := none, txk := 0, irmon := false, trace := s.trace ++ [.rst] }) ∧
  ∀ s : State, s.refused ≠ none → exec .reset s = .next s

/-- 70_reset_and_hazards.md R222: the state at power-on equals the state after RESET, with an empty trace and REFUSED =
none (of the hardware as built, with no event waiting: log entries 2 and 3). -/
def Obligations.PowerOnIsTheResetState : Prop :=
  ∀ s : State, s.refused = none → s.cfg = Config.built →
    ∃ t, exec .reset s = .next t ∧ { t with trace := [], events := [] } = State.reset ∧ State.reset.refused = none

/-! ### Write confinement, order and invariants -/

/-- 70_reset_and_hazards.md R230: each field is written only by the events of its one writer, and by RESET; the sampler's
fields by SAMPTICK in CAPTURE and by TXACK in REPORT, BUF and IRMON by SAMPTICK alone. -/
def Obligations.EachFieldHasOneWriter : Prop :=
  ∀ (i : Instr) (s t : State), i ≠ .reset → exec i s = .next t →
    ((∀ v, i ≠ .wrdisp v) → t.dispval = s.dispval) ∧
    (i ≠ .muxtick → s.sameDisplay t) ∧
    ((∀ l, i ≠ .samptick l) → t.buf = s.buf ∧ t.irmon = s.irmon) ∧
    ((∀ l, i ≠ .samptick l) → i ≠ .txack → s.sameSampler t) ∧
    ((∀ l, i ≠ .samptick l) → s.sphase = .capture → s.sameSampler t) ∧
    (i ≠ .txack → s.sphase = .report → s.sameSampler t)

/-- 60_exceptions.md R207: a display event and a sampler event give the same state in either order, and the same items;
so do two equal WRDISPs and RDENT with WRDISP. The TXACK is one that is offered a byte: after a refused one the display
event would have no effect (R203; log entry 14). -/
def Obligations.DisplayAndSamplerEventsCommute : Prop :=
  (∀ (d e : Instr) (s : State), s.Inv → s.refused = none → d.agent = .host ∨ d.agent = .muxtimer →
      e.agent = .samptimer ∨ (e.agent = .serial ∧ s.sphase = .report) →
      ∃ sd sde se sed, exec d s = .next sd ∧ exec e sd = .next sde ∧ exec e s = .next se ∧ exec d se = .next sed ∧
        { sde with trace := [] } = { sed with trace := [] } ∧ sde.trace.Perm sed.trace) ∧
    ∀ (v : Byte) (s : State), s.refused = none →
      ∃ sw swr sr srw, exec (.wrdisp v) s = .next sw ∧ exec .rdent sw = .next swr ∧ exec .rdent s = .next sr ∧
        exec (.wrdisp v) sr = .next srw ∧ swr = srw

/-- 10_state.md R33: FULL, which is IDX = N_SAMPLES, is the same as SPHASE = REPORT. -/
def Obligations.FullIsTheReportPhase : Prop :=
  ∀ s : State, s.Inv → (s.full = true ↔ s.sphase = .report)

/-- The invariant holds at power-on, with no sample mirrored and the pins as the empty trace says (10_state.md R21 to R37). -/
def Obligations.PowerOnMeetsTheInvariants : Prop :=
  State.reset.Inv ∧ State.reset.BufferIsMirror ∧ State.reset.PinsFollowTrace

/-- Every step keeps the invariant of the machine, from every state that meets it: the bounds of ENTROPY, IDX and TXK, the
idle pins, never two select lines at once, BUF canonical, in range and written below IDX, BUF[0] = 1 when armed, ACC none in
CAPTURE and the decode of the buffer in REPORT (10_state.md R25 to R36; 42_pulse_sampler.md R154, R155, R158). -/
def Obligations.StepKeepsTheMachineInvariant : Prop :=
  ∀ s t : State, s.Inv → step s = .next t → t.Inv

/-- 60_exceptions.md R200: no event traps, faults or halts: from every state that meets the invariant, whatever event words
wait, every number of steps ends in a next state (which meets the invariant again). -/
def Obligations.NoEventFaultsOrHalts : Prop :=
  ∀ (k : Nat) (s : State), s.Inv → ∃ t : State, core.run k s = .next t ∧ t.Inv

/-- 42_pulse_sampler.md R158: every step keeps it that BUF[0 .. IDX-1] are the last IDX samples of the processed ticks, in
order. -/
def Obligations.StepKeepsBufferTheLastSamples : Prop :=
  ∀ s t : State, s.Inv → s.BufferIsMirror → step s = .next t → t.BufferIsMirror

/-- Every step keeps it that the trace says what each output pin holds (00_scope.md R17, 10_state.md R44). -/
def Obligations.StepKeepsPinsAsTraced : Prop :=
  ∀ s t : State, s.PinsFollowTrace → step s = .next t → t.PinsFollowTrace

/-- A whole capture (42_pulse_sampler.md R153 to R155, R158): from an unarmed sampler in CAPTURE, the N_SAMPLES sample ticks
from the first active one on fill the buffer with exactly those samples, mirror each, and end in REPORT with ACC their
decode; the display is untouched. That the steps take the ticks' words off the queue and leave the words behind them waiting
is the model's own (log entry 3). -/
def Obligations.CaptureDecodesExactlyItsSamples : Prop :=
  ∀ (s : State) (B : List Bit) (rest : List EventWord), s.Inv → s.refused = none → s.sphase = .capture →
    s.armed = false → B.length = s.cfg.nSamples → B.head? = some true →
    s.events = B.map (sampleWord s.cfg) ++ rest →
    ∃ t : State, core.run B.length s = .next t ∧ t.events = rest ∧ t.refused = none ∧ t.sphase = .report ∧
      t.armed = true ∧ t.idx = s.cfg.nSamples ∧ t.buf.readRange 0 s.cfg.nSamples = some B ∧
      t.acc = some (decodeSamples s.cfg.tol B) ∧ t.txk = 0 ∧
      t.trace = s.trace ++ B.map (Item.pin .irmon) ∧ t.dispval = s.dispval ∧ s.sameDisplay t

/-! ### The external display register (PRESUMED, log entry 13) -/

/-- 41_display_multiplexer.md R129: whatever the external register held before, after a tick's 28 items its output stage is
p XOR W, the lit segments are p, and they show on the serviced digit only. The register is general knowledge, not the block
(log entry 13). -/
def Obligations.TickLightsThePatternOnItsDigit : Prop :=
  ∀ (s : State) (d : DisplayRegister), s.refused = none → ∃ (t : State) (T : List Item) (p : Byte),
    exec .muxtick s = .next t ∧ t.trace = s.trace ++ T ∧ p = segEncode s.cfg (digitOf s.dispval t.pos) ∧
    (d.watch T).out = p ^^^ polarityMask s.cfg ∧ (d.watch T).lit s.cfg = p ∧
    (d.watch T).shows s.cfg t.pos = p ∧ (d.watch T).shows s.cfg t.pos.other = 0x00

/-- 70_reset_and_hazards.md R225: from the select writes until the LATCH pulse the newly selected digit, and only it, shows
the pattern last latched (by the register of log entry 13). -/
def Obligations.NewDigitGhostsUntilTheLatch : Prop :=
  ∀ (s : State) (d : DisplayRegister) (n : Nat), s.refused = none → 2 ≤ n → n ≤ 26 →
    ∃ (t : State) (T : List Item), exec .muxtick s = .next t ∧ t.trace = s.trace ++ T ∧
      (d.watch (T.take n)).shows s.cfg t.pos = d.lit s.cfg ∧ (d.watch (T.take n)).shows s.cfg t.pos.other = 0x00
end

