-- ==== Sys2Proof/Laws/Memory.lean ====
section
/-! SUPPORT. The laws of the sample buffer: what a read sees after a write, and that a write keeps the canonical form. -/

namespace Sys2Proof.Machine

theorem Memory.read_write_same (m : Memory) (i : Nat) (b : Bit) : (m.write i b).read i = some b := by
  induction m with
  | nil => simp [Memory.write, Memory.read]
  | cons x rest ih =>
    obtain ⟨k, c⟩ := x
    unfold Memory.write
    split
    · simp [Memory.read]
    · split
      · simp [Memory.read]
      · rw [Memory.read, if_neg (by omega), ih]

theorem Memory.read_write_other (m : Memory) {i j : Nat} (b : Bit) (h : j ≠ i) : (m.write i b).read j = m.read j := by
  induction m with
  | nil => simp [Memory.write, Memory.read, Ne.symm h]
  | cons x rest ih =>
    obtain ⟨k, c⟩ := x
    unfold Memory.write
    split
    · rw [Memory.read, if_neg (Ne.symm h)]
    · split
      · next h1 h2 => subst h2; simp [Memory.read, Ne.symm h]
      · simp only [Memory.read, ih]

/-- Every entry of a written buffer is an old entry or the written one. -/
theorem Memory.mem_write {m : Memory} {i : Nat} {b : Bit} {x : Nat × Bit} (h : x ∈ m.write i b) :
    x ∈ m ∨ x = (i, b) := by
  induction m with
  | nil => simpa [Memory.write] using h
  | cons y rest ih =>
    obtain ⟨k, c⟩ := y
    unfold Memory.write at h
    split at h
    · rcases List.mem_cons.1 h with h | h
      · exact .inr h
      · exact .inl h
    · split at h
      · rcases List.mem_cons.1 h with h | h
        · exact .inr h
        · exact .inl (List.mem_cons_of_mem _ h)
      · rcases List.mem_cons.1 h with h | h
        · exact .inl (h ▸ List.mem_cons_self)
        · rcases ih h with h | h
          · exact .inl (List.mem_cons_of_mem _ h)
          · exact .inr h

/-- Every write keeps the canonical form. -/
theorem Memory.write_wf {m : Memory} (h : m.wf) (i : Nat) (b : Bit) : (m.write i b).wf := by
  induction m with
  | nil => simp [Memory.write, Memory.wf]
  | cons y rest ih =>
    obtain ⟨k, c⟩ := y
    obtain ⟨hk, hr⟩ := List.pairwise_cons.1 h
    unfold Memory.write
    split
    · next hlt =>
      refine List.pairwise_cons.2 ⟨fun x hx => ?_, h⟩
      rcases List.mem_cons.1 hx with rfl | hx
      · exact hlt
      · exact Nat.lt_trans hlt (hk x hx)
    · split
      · next heq => subst heq; exact List.pairwise_cons.2 ⟨hk, hr⟩
      · refine List.pairwise_cons.2 ⟨fun x hx => ?_, ih hr⟩
        rcases Memory.mem_write hx with hx | rfl
        · exact hk x hx
        · show k < i; omega

/-- A write inside the buffer keeps every entry inside it. -/
theorem Memory.write_range {m : Memory} {n i : Nat} {b : Bit} (h : ∀ x ∈ m, x.1 < n) (hi : i < n) :
    ∀ x ∈ m.write i b, x.1 < n := by
  intro x hx
  rcases Memory.mem_write hx with hx | rfl
  · exact h x hx
  · exact hi

theorem Memory.readRange_length {m : Memory} {n i : Nat} {B : List Bit} (h : m.readRange i n = some B) :
    B.length = n := by
  induction n generalizing i B with
  | zero => simp [Memory.readRange] at h; simp [← h]
  | succ n ih =>
    simp only [Memory.readRange] at h
    split at h
    · next b bs _ hbs => cases h; simp [ih hbs]
    · cases h

/-- A range is readable exactly when each of its cells holds a value. -/
theorem Memory.readRange_isSome (m : Memory) (i n : Nat) :
    (m.readRange i n).isSome = true ↔ ∀ j, j < n → (m.read (i + j)).isSome = true := by
  induction n generalizing i with
  | zero => simp [Memory.readRange]
  | succ n ih =>
    have ih' := ih (i + 1)
    constructor
    · intro h
      simp only [Memory.readRange] at h
      split at h
      · next b bs hb hbs =>
        rw [hbs] at ih'
        intro j hj
        rcases j with _ | j
        · simp [hb]
        · have := ih'.1 rfl j (by omega)
          rwa [show i + (j + 1) = i + 1 + j by omega]
      · cases h
    · intro h
      have h0 := h 0 (by omega)
      have h1 := ih'.2 fun j hj => by
        have := h (j + 1) (by omega)
        rwa [show i + 1 + j = i + (j + 1) by omega]
      obtain ⟨b, hb⟩ := Option.isSome_iff_exists.1 h0
      obtain ⟨bs, hbs⟩ := Option.isSome_iff_exists.1 h1
      rw [Nat.add_zero] at hb
      simp [Memory.readRange, hb, hbs]

/-- A range sees only its own cells. -/
theorem Memory.readRange_congr {m m' : Memory} {i n : Nat} (h : ∀ j, j < n → m.read (i + j) = m'.read (i + j)) :
    m.readRange i n = m'.readRange i n := by
  induction n generalizing i with
  | zero => rfl
  | succ n ih =>
    have h0 := h 0 (by omega)
    have h1 := ih (i := i + 1) fun j hj => by
      have := h (j + 1) (by omega)
      rwa [show i + 1 + j = i + (j + 1) by omega]
    simp only [Nat.add_zero] at h0
    simp only [Memory.readRange, h0, h1]

/-- A range one cell longer. -/
theorem Memory.readRange_snoc {m : Memory} {i n : Nat} {B : List Bit} {b : Bit} (h : m.readRange i n = some B)
    (hb : m.read (i + n) = some b) : m.readRange i (n + 1) = some (B ++ [b]) := by
  induction n generalizing i B with
  | zero =>
    simp [Memory.readRange] at h
    simp [Memory.readRange, ← h, show m.read i = some b from hb]
  | succ n ih =>
    rw [Memory.readRange] at h
    split at h
    · next c cs hc hcs =>
      cases h
      have := ih hcs (by rwa [show i + 1 + n = i + (n + 1) by omega])
      rw [Memory.readRange, hc, this]
      rfl
    · cases h

/-- Appending one sample at the end of a readable range. -/
theorem Memory.readRange_write {m : Memory} {n : Nat} {B : List Bit} (b : Bit) (h : m.readRange 0 n = some B) :
    (m.write n b).readRange 0 (n + 1) = some (B ++ [b]) := by
  refine Memory.readRange_snoc ?_ (by rw [Nat.zero_add]; exact Memory.read_write_same m n b)
  rw [← h]
  exact Memory.readRange_congr fun j hj => Memory.read_write_other m b (by omega)

end Sys2Proof.Machine
end

