-- ==== Sys2Proof/Laws/State.lean ====
section
/-! SUPPORT. One lemma per field per update of State, so that no later proof unfolds a record update. -/

namespace Sys2Proof.Machine

/-! ### emit -/

@[simp] theorem State.emit_dispval (s : State) (t : Item) : (s.emit t).dispval = s.dispval := rfl
@[simp] theorem State.emit_pos (s : State) (t : Item) : (s.emit t).pos = s.pos := rfl
@[simp] theorem State.emit_patL (s : State) (t : Item) : (s.emit t).patL = s.patL := rfl
@[simp] theorem State.emit_patR (s : State) (t : Item) : (s.emit t).patR = s.patR := rfl
@[simp] theorem State.emit_entropy (s : State) (t : Item) : (s.emit t).entropy = s.entropy := rfl
@[simp] theorem State.emit_selL (s : State) (t : Item) : (s.emit t).selL = s.selL := rfl
@[simp] theorem State.emit_selR (s : State) (t : Item) : (s.emit t).selR = s.selR := rfl
@[simp] theorem State.emit_sdata (s : State) (t : Item) : (s.emit t).sdata = s.sdata := rfl
@[simp] theorem State.emit_sclk (s : State) (t : Item) : (s.emit t).sclk = s.sclk := rfl
@[simp] theorem State.emit_latch (s : State) (t : Item) : (s.emit t).latch = s.latch := rfl
@[simp] theorem State.emit_sphase (s : State) (t : Item) : (s.emit t).sphase = s.sphase := rfl
@[simp] theorem State.emit_armed (s : State) (t : Item) : (s.emit t).armed = s.armed := rfl
@[simp] theorem State.emit_idx (s : State) (t : Item) : (s.emit t).idx = s.idx := rfl
@[simp] theorem State.emit_buf (s : State) (t : Item) : (s.emit t).buf = s.buf := rfl
@[simp] theorem State.emit_acc (s : State) (t : Item) : (s.emit t).acc = s.acc := rfl
@[simp] theorem State.emit_txk (s : State) (t : Item) : (s.emit t).txk = s.txk := rfl
@[simp] theorem State.emit_irmon (s : State) (t : Item) : (s.emit t).irmon = s.irmon := rfl
@[simp] theorem State.emit_refused (s : State) (t : Item) : (s.emit t).refused = s.refused := rfl
@[simp] theorem State.emit_trace (s : State) (t : Item) : (s.emit t).trace = s.trace ++ [t] := rfl
@[simp] theorem State.emit_cfg (s : State) (t : Item) : (s.emit t).cfg = s.cfg := rfl
@[simp] theorem State.emit_events (s : State) (t : Item) : (s.emit t).events = s.events := rfl

/-! ### refuse -/

@[simp] theorem State.refuse_dispval (s : State) (r : RefuseReason) : (s.refuse r).dispval = s.dispval := rfl
@[simp] theorem State.refuse_pos (s : State) (r : RefuseReason) : (s.refuse r).pos = s.pos := rfl
@[simp] theorem State.refuse_patL (s : State) (r : RefuseReason) : (s.refuse r).patL = s.patL := rfl
@[simp] theorem State.refuse_patR (s : State) (r : RefuseReason) : (s.refuse r).patR = s.patR := rfl
@[simp] theorem State.refuse_entropy (s : State) (r : RefuseReason) : (s.refuse r).entropy = s.entropy := rfl
@[simp] theorem State.refuse_selL (s : State) (r : RefuseReason) : (s.refuse r).selL = s.selL := rfl
@[simp] theorem State.refuse_selR (s : State) (r : RefuseReason) : (s.refuse r).selR = s.selR := rfl
@[simp] theorem State.refuse_sdata (s : State) (r : RefuseReason) : (s.refuse r).sdata = s.sdata := rfl
@[simp] theorem State.refuse_sclk (s : State) (r : RefuseReason) : (s.refuse r).sclk = s.sclk := rfl
@[simp] theorem State.refuse_latch (s : State) (r : RefuseReason) : (s.refuse r).latch = s.latch := rfl
@[simp] theorem State.refuse_sphase (s : State) (r : RefuseReason) : (s.refuse r).sphase = s.sphase := rfl
@[simp] theorem State.refuse_armed (s : State) (r : RefuseReason) : (s.refuse r).armed = s.armed := rfl
@[simp] theorem State.refuse_idx (s : State) (r : RefuseReason) : (s.refuse r).idx = s.idx := rfl
@[simp] theorem State.refuse_buf (s : State) (r : RefuseReason) : (s.refuse r).buf = s.buf := rfl
@[simp] theorem State.refuse_acc (s : State) (r : RefuseReason) : (s.refuse r).acc = s.acc := rfl
@[simp] theorem State.refuse_txk (s : State) (r : RefuseReason) : (s.refuse r).txk = s.txk := rfl
@[simp] theorem State.refuse_irmon (s : State) (r : RefuseReason) : (s.refuse r).irmon = s.irmon := rfl
@[simp] theorem State.refuse_refused (s : State) (r : RefuseReason) : (s.refuse r).refused = some r := rfl
@[simp] theorem State.refuse_trace (s : State) (r : RefuseReason) : (s.refuse r).trace = s.trace := rfl
@[simp] theorem State.refuse_cfg (s : State) (r : RefuseReason) : (s.refuse r).cfg = s.cfg := rfl
@[simp] theorem State.refuse_events (s : State) (r : RefuseReason) : (s.refuse r).events = s.events := rfl

/-! ### offerNext -/

@[simp] theorem State.offerNext_dispval (s : State) (w : EventWord) : (s.offerNext w).dispval = s.dispval := rfl
@[simp] theorem State.offerNext_pos (s : State) (w : EventWord) : (s.offerNext w).pos = s.pos := rfl
@[simp] theorem State.offerNext_patL (s : State) (w : EventWord) : (s.offerNext w).patL = s.patL := rfl
@[simp] theorem State.offerNext_patR (s : State) (w : EventWord) : (s.offerNext w).patR = s.patR := rfl
@[simp] theorem State.offerNext_entropy (s : State) (w : EventWord) : (s.offerNext w).entropy = s.entropy := rfl
@[simp] theorem State.offerNext_selL (s : State) (w : EventWord) : (s.offerNext w).selL = s.selL := rfl
@[simp] theorem State.offerNext_selR (s : State) (w : EventWord) : (s.offerNext w).selR = s.selR := rfl
@[simp] theorem State.offerNext_sdata (s : State) (w : EventWord) : (s.offerNext w).sdata = s.sdata := rfl
@[simp] theorem State.offerNext_sclk (s : State) (w : EventWord) : (s.offerNext w).sclk = s.sclk := rfl
@[simp] theorem State.offerNext_latch (s : State) (w : EventWord) : (s.offerNext w).latch = s.latch := rfl
@[simp] theorem State.offerNext_sphase (s : State) (w : EventWord) : (s.offerNext w).sphase = s.sphase := rfl
@[simp] theorem State.offerNext_armed (s : State) (w : EventWord) : (s.offerNext w).armed = s.armed := rfl
@[simp] theorem State.offerNext_idx (s : State) (w : EventWord) : (s.offerNext w).idx = s.idx := rfl
@[simp] theorem State.offerNext_buf (s : State) (w : EventWord) : (s.offerNext w).buf = s.buf := rfl
@[simp] theorem State.offerNext_acc (s : State) (w : EventWord) : (s.offerNext w).acc = s.acc := rfl
@[simp] theorem State.offerNext_txk (s : State) (w : EventWord) : (s.offerNext w).txk = s.txk := rfl
@[simp] theorem State.offerNext_irmon (s : State) (w : EventWord) : (s.offerNext w).irmon = s.irmon := rfl
@[simp] theorem State.offerNext_refused (s : State) (w : EventWord) : (s.offerNext w).refused = s.refused := rfl
@[simp] theorem State.offerNext_trace (s : State) (w : EventWord) : (s.offerNext w).trace = s.trace := rfl
@[simp] theorem State.offerNext_cfg (s : State) (w : EventWord) : (s.offerNext w).cfg = s.cfg := rfl
@[simp] theorem State.offerNext_events (s : State) (w : EventWord) : (s.offerNext w).events = w :: s.events := rfl

/-! ### deliver -/

@[simp] theorem State.deliver_dispval (s : State) (ws : List EventWord) : (s.deliver ws).dispval = s.dispval := rfl
@[simp] theorem State.deliver_pos (s : State) (ws : List EventWord) : (s.deliver ws).pos = s.pos := rfl
@[simp] theorem State.deliver_patL (s : State) (ws : List EventWord) : (s.deliver ws).patL = s.patL := rfl
@[simp] theorem State.deliver_patR (s : State) (ws : List EventWord) : (s.deliver ws).patR = s.patR := rfl
@[simp] theorem State.deliver_entropy (s : State) (ws : List EventWord) : (s.deliver ws).entropy = s.entropy := rfl
@[simp] theorem State.deliver_selL (s : State) (ws : List EventWord) : (s.deliver ws).selL = s.selL := rfl
@[simp] theorem State.deliver_selR (s : State) (ws : List EventWord) : (s.deliver ws).selR = s.selR := rfl
@[simp] theorem State.deliver_sdata (s : State) (ws : List EventWord) : (s.deliver ws).sdata = s.sdata := rfl
@[simp] theorem State.deliver_sclk (s : State) (ws : List EventWord) : (s.deliver ws).sclk = s.sclk := rfl
@[simp] theorem State.deliver_latch (s : State) (ws : List EventWord) : (s.deliver ws).latch = s.latch := rfl
@[simp] theorem State.deliver_sphase (s : State) (ws : List EventWord) : (s.deliver ws).sphase = s.sphase := rfl
@[simp] theorem State.deliver_armed (s : State) (ws : List EventWord) : (s.deliver ws).armed = s.armed := rfl
@[simp] theorem State.deliver_idx (s : State) (ws : List EventWord) : (s.deliver ws).idx = s.idx := rfl
@[simp] theorem State.deliver_buf (s : State) (ws : List EventWord) : (s.deliver ws).buf = s.buf := rfl
@[simp] theorem State.deliver_acc (s : State) (ws : List EventWord) : (s.deliver ws).acc = s.acc := rfl
@[simp] theorem State.deliver_txk (s : State) (ws : List EventWord) : (s.deliver ws).txk = s.txk := rfl
@[simp] theorem State.deliver_irmon (s : State) (ws : List EventWord) : (s.deliver ws).irmon = s.irmon := rfl
@[simp] theorem State.deliver_refused (s : State) (ws : List EventWord) : (s.deliver ws).refused = s.refused := rfl
@[simp] theorem State.deliver_trace (s : State) (ws : List EventWord) : (s.deliver ws).trace = s.trace := rfl
@[simp] theorem State.deliver_cfg (s : State) (ws : List EventWord) : (s.deliver ws).cfg = s.cfg := rfl
@[simp] theorem State.deliver_events (s : State) (ws : List EventWord) : (s.deliver ws).events = s.events ++ ws := rfl

/-! ### countTick -/

@[simp] theorem State.countTick_dispval (s : State) : (s.countTick).dispval = s.dispval := rfl
@[simp] theorem State.countTick_pos (s : State) : (s.countTick).pos = s.pos := rfl
@[simp] theorem State.countTick_patL (s : State) : (s.countTick).patL = s.patL := rfl
@[simp] theorem State.countTick_patR (s : State) : (s.countTick).patR = s.patR := rfl
@[simp] theorem State.countTick_entropy (s : State) : (s.countTick).entropy = (s.entropy + 1) % 2 ^ s.cfg.entropyWidth := rfl
@[simp] theorem State.countTick_selL (s : State) : (s.countTick).selL = s.selL := rfl
@[simp] theorem State.countTick_selR (s : State) : (s.countTick).selR = s.selR := rfl
@[simp] theorem State.countTick_sdata (s : State) : (s.countTick).sdata = s.sdata := rfl
@[simp] theorem State.countTick_sclk (s : State) : (s.countTick).sclk = s.sclk := rfl
@[simp] theorem State.countTick_latch (s : State) : (s.countTick).latch = s.latch := rfl
@[simp] theorem State.countTick_sphase (s : State) : (s.countTick).sphase = s.sphase := rfl
@[simp] theorem State.countTick_armed (s : State) : (s.countTick).armed = s.armed := rfl
@[simp] theorem State.countTick_idx (s : State) : (s.countTick).idx = s.idx := rfl
@[simp] theorem State.countTick_buf (s : State) : (s.countTick).buf = s.buf := rfl
@[simp] theorem State.countTick_acc (s : State) : (s.countTick).acc = s.acc := rfl
@[simp] theorem State.countTick_txk (s : State) : (s.countTick).txk = s.txk := rfl
@[simp] theorem State.countTick_irmon (s : State) : (s.countTick).irmon = s.irmon := rfl
@[simp] theorem State.countTick_refused (s : State) : (s.countTick).refused = s.refused := rfl
@[simp] theorem State.countTick_trace (s : State) : (s.countTick).trace = s.trace := rfl
@[simp] theorem State.countTick_cfg (s : State) : (s.countTick).cfg = s.cfg := rfl
@[simp] theorem State.countTick_events (s : State) : (s.countTick).events = s.events := rfl

/-! ### setPattern -/

@[simp] theorem State.setPattern_dispval (s : State) (pos : Pos) (p : Byte) : (s.setPattern pos p).dispval = s.dispval := by cases pos <;> rfl
@[simp] theorem State.setPattern_pos (s : State) (pos : Pos) (p : Byte) : (s.setPattern pos p).pos = s.pos := by cases pos <;> rfl
@[simp] theorem State.setPattern_entropy (s : State) (pos : Pos) (p : Byte) : (s.setPattern pos p).entropy = s.entropy := by cases pos <;> rfl
@[simp] theorem State.setPattern_selL (s : State) (pos : Pos) (p : Byte) : (s.setPattern pos p).selL = s.selL := by cases pos <;> rfl
@[simp] theorem State.setPattern_selR (s : State) (pos : Pos) (p : Byte) : (s.setPattern pos p).selR = s.selR := by cases pos <;> rfl
@[simp] theorem State.setPattern_sdata (s : State) (pos : Pos) (p : Byte) : (s.setPattern pos p).sdata = s.sdata := by cases pos <;> rfl
@[simp] theorem State.setPattern_sclk (s : State) (pos : Pos) (p : Byte) : (s.setPattern pos p).sclk = s.sclk := by cases pos <;> rfl
@[simp] theorem State.setPattern_latch (s : State) (pos : Pos) (p : Byte) : (s.setPattern pos p).latch = s.latch := by cases pos <;> rfl
@[simp] theorem State.setPattern_sphase (s : State) (pos : Pos) (p : Byte) : (s.setPattern pos p).sphase = s.sphase := by cases pos <;> rfl
@[simp] theorem State.setPattern_armed (s : State) (pos : Pos) (p : Byte) : (s.setPattern pos p).armed = s.armed := by cases pos <;> rfl
@[simp] theorem State.setPattern_idx (s : State) (pos : Pos) (p : Byte) : (s.setPattern pos p).idx = s.idx := by cases pos <;> rfl
@[simp] theorem State.setPattern_buf (s : State) (pos : Pos) (p : Byte) : (s.setPattern pos p).buf = s.buf := by cases pos <;> rfl
@[simp] theorem State.setPattern_acc (s : State) (pos : Pos) (p : Byte) : (s.setPattern pos p).acc = s.acc := by cases pos <;> rfl
@[simp] theorem State.setPattern_txk (s : State) (pos : Pos) (p : Byte) : (s.setPattern pos p).txk = s.txk := by cases pos <;> rfl
@[simp] theorem State.setPattern_irmon (s : State) (pos : Pos) (p : Byte) : (s.setPattern pos p).irmon = s.irmon := by cases pos <;> rfl
@[simp] theorem State.setPattern_refused (s : State) (pos : Pos) (p : Byte) : (s.setPattern pos p).refused = s.refused := by cases pos <;> rfl
@[simp] theorem State.setPattern_trace (s : State) (pos : Pos) (p : Byte) : (s.setPattern pos p).trace = s.trace := by cases pos <;> rfl
@[simp] theorem State.setPattern_cfg (s : State) (pos : Pos) (p : Byte) : (s.setPattern pos p).cfg = s.cfg := by cases pos <;> rfl
@[simp] theorem State.setPattern_events (s : State) (pos : Pos) (p : Byte) : (s.setPattern pos p).events = s.events := by cases pos <;> rfl
@[simp] theorem State.setPattern_left_patL (s : State) (p : Byte) : (s.setPattern .left p).patL = p := rfl
@[simp] theorem State.setPattern_left_patR (s : State) (p : Byte) : (s.setPattern .left p).patR = s.patR := rfl
@[simp] theorem State.setPattern_right_patL (s : State) (p : Byte) : (s.setPattern .right p).patL = s.patL := rfl
@[simp] theorem State.setPattern_right_patR (s : State) (p : Byte) : (s.setPattern .right p).patR = p := rfl

/-! ### armOn -/

@[simp] theorem State.armOn_dispval (s : State) (b : Bit) : (s.armOn b).dispval = s.dispval := by unfold State.armOn; split <;> simp_all
@[simp] theorem State.armOn_pos (s : State) (b : Bit) : (s.armOn b).pos = s.pos := by unfold State.armOn; split <;> simp_all
@[simp] theorem State.armOn_patL (s : State) (b : Bit) : (s.armOn b).patL = s.patL := by unfold State.armOn; split <;> simp_all
@[simp] theorem State.armOn_patR (s : State) (b : Bit) : (s.armOn b).patR = s.patR := by unfold State.armOn; split <;> simp_all
@[simp] theorem State.armOn_entropy (s : State) (b : Bit) : (s.armOn b).entropy = s.entropy := by unfold State.armOn; split <;> simp_all
@[simp] theorem State.armOn_selL (s : State) (b : Bit) : (s.armOn b).selL = s.selL := by unfold State.armOn; split <;> simp_all
@[simp] theorem State.armOn_selR (s : State) (b : Bit) : (s.armOn b).selR = s.selR := by unfold State.armOn; split <;> simp_all
@[simp] theorem State.armOn_sdata (s : State) (b : Bit) : (s.armOn b).sdata = s.sdata := by unfold State.armOn; split <;> simp_all
@[simp] theorem State.armOn_sclk (s : State) (b : Bit) : (s.armOn b).sclk = s.sclk := by unfold State.armOn; split <;> simp_all
@[simp] theorem State.armOn_latch (s : State) (b : Bit) : (s.armOn b).latch = s.latch := by unfold State.armOn; split <;> simp_all
@[simp] theorem State.armOn_sphase (s : State) (b : Bit) : (s.armOn b).sphase = s.sphase := by unfold State.armOn; split <;> simp_all
@[simp] theorem State.armOn_armed (s : State) (b : Bit) : (s.armOn b).armed = (s.armed || b) := by
  unfold State.armOn
  cases h : s.armed <;> cases b <;> simp_all
@[simp] theorem State.armOn_idx (s : State) (b : Bit) : (s.armOn b).idx = s.idx := by unfold State.armOn; split <;> simp_all
@[simp] theorem State.armOn_buf (s : State) (b : Bit) : (s.armOn b).buf = s.buf := by unfold State.armOn; split <;> simp_all
@[simp] theorem State.armOn_acc (s : State) (b : Bit) : (s.armOn b).acc = s.acc := by unfold State.armOn; split <;> simp_all
@[simp] theorem State.armOn_txk (s : State) (b : Bit) : (s.armOn b).txk = s.txk := by unfold State.armOn; split <;> simp_all
@[simp] theorem State.armOn_irmon (s : State) (b : Bit) : (s.armOn b).irmon = s.irmon := by unfold State.armOn; split <;> simp_all
@[simp] theorem State.armOn_refused (s : State) (b : Bit) : (s.armOn b).refused = s.refused := by unfold State.armOn; split <;> simp_all
@[simp] theorem State.armOn_trace (s : State) (b : Bit) : (s.armOn b).trace = s.trace := by unfold State.armOn; split <;> simp_all
@[simp] theorem State.armOn_cfg (s : State) (b : Bit) : (s.armOn b).cfg = s.cfg := by unfold State.armOn; split <;> simp_all
@[simp] theorem State.armOn_events (s : State) (b : Bit) : (s.armOn b).events = s.events := by unfold State.armOn; split <;> simp_all

/-! ### storeSample -/

@[simp] theorem State.storeSample_dispval (s : State) (b : Bit) : (s.storeSample b).dispval = s.dispval := rfl
@[simp] theorem State.storeSample_pos (s : State) (b : Bit) : (s.storeSample b).pos = s.pos := rfl
@[simp] theorem State.storeSample_patL (s : State) (b : Bit) : (s.storeSample b).patL = s.patL := rfl
@[simp] theorem State.storeSample_patR (s : State) (b : Bit) : (s.storeSample b).patR = s.patR := rfl
@[simp] theorem State.storeSample_entropy (s : State) (b : Bit) : (s.storeSample b).entropy = s.entropy := rfl
@[simp] theorem State.storeSample_selL (s : State) (b : Bit) : (s.storeSample b).selL = s.selL := rfl
@[simp] theorem State.storeSample_selR (s : State) (b : Bit) : (s.storeSample b).selR = s.selR := rfl
@[simp] theorem State.storeSample_sdata (s : State) (b : Bit) : (s.storeSample b).sdata = s.sdata := rfl
@[simp] theorem State.storeSample_sclk (s : State) (b : Bit) : (s.storeSample b).sclk = s.sclk := rfl
@[simp] theorem State.storeSample_latch (s : State) (b : Bit) : (s.storeSample b).latch = s.latch := rfl
@[simp] theorem State.storeSample_sphase (s : State) (b : Bit) : (s.storeSample b).sphase = s.sphase := rfl
@[simp] theorem State.storeSample_armed (s : State) (b : Bit) : (s.storeSample b).armed = s.armed := rfl
@[simp] theorem State.storeSample_idx (s : State) (b : Bit) : (s.storeSample b).idx = s.idx + 1 := rfl
@[simp] theorem State.storeSample_buf (s : State) (b : Bit) : (s.storeSample b).buf = s.buf.write s.idx b := rfl
@[simp] theorem State.storeSample_acc (s : State) (b : Bit) : (s.storeSample b).acc = s.acc := rfl
@[simp] theorem State.storeSample_txk (s : State) (b : Bit) : (s.storeSample b).txk = s.txk := rfl
@[simp] theorem State.storeSample_irmon (s : State) (b : Bit) : (s.storeSample b).irmon = s.irmon := rfl
@[simp] theorem State.storeSample_refused (s : State) (b : Bit) : (s.storeSample b).refused = s.refused := rfl
@[simp] theorem State.storeSample_trace (s : State) (b : Bit) : (s.storeSample b).trace = s.trace := rfl
@[simp] theorem State.storeSample_cfg (s : State) (b : Bit) : (s.storeSample b).cfg = s.cfg := rfl
@[simp] theorem State.storeSample_events (s : State) (b : Bit) : (s.storeSample b).events = s.events := rfl

/-! ### beginReport -/

@[simp] theorem State.beginReport_dispval (s : State) (a : AccWord) : (s.beginReport a).dispval = s.dispval := rfl
@[simp] theorem State.beginReport_pos (s : State) (a : AccWord) : (s.beginReport a).pos = s.pos := rfl
@[simp] theorem State.beginReport_patL (s : State) (a : AccWord) : (s.beginReport a).patL = s.patL := rfl
@[simp] theorem State.beginReport_patR (s : State) (a : AccWord) : (s.beginReport a).patR = s.patR := rfl
@[simp] theorem State.beginReport_entropy (s : State) (a : AccWord) : (s.beginReport a).entropy = s.entropy := rfl
@[simp] theorem State.beginReport_selL (s : State) (a : AccWord) : (s.beginReport a).selL = s.selL := rfl
@[simp] theorem State.beginReport_selR (s : State) (a : AccWord) : (s.beginReport a).selR = s.selR := rfl
@[simp] theorem State.beginReport_sdata (s : State) (a : AccWord) : (s.beginReport a).sdata = s.sdata := rfl
@[simp] theorem State.beginReport_sclk (s : State) (a : AccWord) : (s.beginReport a).sclk = s.sclk := rfl
@[simp] theorem State.beginReport_latch (s : State) (a : AccWord) : (s.beginReport a).latch = s.latch := rfl
@[simp] theorem State.beginReport_sphase (s : State) (a : AccWord) : (s.beginReport a).sphase = .report := rfl
@[simp] theorem State.beginReport_armed (s : State) (a : AccWord) : (s.beginReport a).armed = s.armed := rfl
@[simp] theorem State.beginReport_idx (s : State) (a : AccWord) : (s.beginReport a).idx = s.idx := rfl
@[simp] theorem State.beginReport_buf (s : State) (a : AccWord) : (s.beginReport a).buf = s.buf := rfl
@[simp] theorem State.beginReport_acc (s : State) (a : AccWord) : (s.beginReport a).acc = some a := rfl
@[simp] theorem State.beginReport_txk (s : State) (a : AccWord) : (s.beginReport a).txk = 0 := rfl
@[simp] theorem State.beginReport_irmon (s : State) (a : AccWord) : (s.beginReport a).irmon = s.irmon := rfl
@[simp] theorem State.beginReport_refused (s : State) (a : AccWord) : (s.beginReport a).refused = s.refused := rfl
@[simp] theorem State.beginReport_trace (s : State) (a : AccWord) : (s.beginReport a).trace = s.trace := rfl
@[simp] theorem State.beginReport_cfg (s : State) (a : AccWord) : (s.beginReport a).cfg = s.cfg := rfl
@[simp] theorem State.beginReport_events (s : State) (a : AccWord) : (s.beginReport a).events = s.events := rfl

/-! ### endReport -/

@[simp] theorem State.endReport_dispval (s : State) : (s.endReport).dispval = s.dispval := rfl
@[simp] theorem State.endReport_pos (s : State) : (s.endReport).pos = s.pos := rfl
@[simp] theorem State.endReport_patL (s : State) : (s.endReport).patL = s.patL := rfl
@[simp] theorem State.endReport_patR (s : State) : (s.endReport).patR = s.patR := rfl
@[simp] theorem State.endReport_entropy (s : State) : (s.endReport).entropy = s.entropy := rfl
@[simp] theorem State.endReport_selL (s : State) : (s.endReport).selL = s.selL := rfl
@[simp] theorem State.endReport_selR (s : State) : (s.endReport).selR = s.selR := rfl
@[simp] theorem State.endReport_sdata (s : State) : (s.endReport).sdata = s.sdata := rfl
@[simp] theorem State.endReport_sclk (s : State) : (s.endReport).sclk = s.sclk := rfl
@[simp] theorem State.endReport_latch (s : State) : (s.endReport).latch = s.latch := rfl
@[simp] theorem State.endReport_sphase (s : State) : (s.endReport).sphase = .capture := rfl
@[simp] theorem State.endReport_armed (s : State) : (s.endReport).armed = false := rfl
@[simp] theorem State.endReport_idx (s : State) : (s.endReport).idx = 0 := rfl
@[simp] theorem State.endReport_buf (s : State) : (s.endReport).buf = s.buf := rfl
@[simp] theorem State.endReport_acc (s : State) : (s.endReport).acc = none := rfl
@[simp] theorem State.endReport_txk (s : State) : (s.endReport).txk = 0 := rfl
@[simp] theorem State.endReport_irmon (s : State) : (s.endReport).irmon = s.irmon := rfl
@[simp] theorem State.endReport_refused (s : State) : (s.endReport).refused = s.refused := rfl
@[simp] theorem State.endReport_trace (s : State) : (s.endReport).trace = s.trace := rfl
@[simp] theorem State.endReport_cfg (s : State) : (s.endReport).cfg = s.cfg := rfl
@[simp] theorem State.endReport_events (s : State) : (s.endReport).events = s.events := rfl

/-! ### resetRegisters -/

@[simp] theorem State.resetRegisters_dispval (s : State) : (s.resetRegisters).dispval = 0xFF := rfl
@[simp] theorem State.resetRegisters_pos (s : State) : (s.resetRegisters).pos = .right := rfl
@[simp] theorem State.resetRegisters_patL (s : State) : (s.resetRegisters).patL = 0x00 := rfl
@[simp] theorem State.resetRegisters_patR (s : State) : (s.resetRegisters).patR = 0x00 := rfl
@[simp] theorem State.resetRegisters_entropy (s : State) : (s.resetRegisters).entropy = 0 := rfl
@[simp] theorem State.resetRegisters_selL (s : State) : (s.resetRegisters).selL = false := rfl
@[simp] theorem State.resetRegisters_selR (s : State) : (s.resetRegisters).selR = false := rfl
@[simp] theorem State.resetRegisters_sdata (s : State) : (s.resetRegisters).sdata = false := rfl
@[simp] theorem State.resetRegisters_sclk (s : State) : (s.resetRegisters).sclk = false := rfl
@[simp] theorem State.resetRegisters_latch (s : State) : (s.resetRegisters).latch = false := rfl
@[simp] theorem State.resetRegisters_sphase (s : State) : (s.resetRegisters).sphase = .capture := rfl
@[simp] theorem State.resetRegisters_armed (s : State) : (s.resetRegisters).armed = false := rfl
@[simp] theorem State.resetRegisters_idx (s : State) : (s.resetRegisters).idx = 0 := rfl
@[simp] theorem State.resetRegisters_buf (s : State) : (s.resetRegisters).buf = [] := rfl
@[simp] theorem State.resetRegisters_acc (s : State) : (s.resetRegisters).acc = none := rfl
@[simp] theorem State.resetRegisters_txk (s : State) : (s.resetRegisters).txk = 0 := rfl
@[simp] theorem State.resetRegisters_irmon (s : State) : (s.resetRegisters).irmon = false := rfl
@[simp] theorem State.resetRegisters_refused (s : State) : (s.resetRegisters).refused = s.refused := rfl
@[simp] theorem State.resetRegisters_trace (s : State) : (s.resetRegisters).trace = s.trace := rfl
@[simp] theorem State.resetRegisters_cfg (s : State) : (s.resetRegisters).cfg = s.cfg := rfl
@[simp] theorem State.resetRegisters_events (s : State) : (s.resetRegisters).events = s.events := rfl

/-! ### setPin -/

@[simp] theorem State.setPin_dispval (s : State) (p : Pin) (v : Bit) : (s.setPin p v).dispval = s.dispval := by cases p <;> rfl
@[simp] theorem State.setPin_pos (s : State) (p : Pin) (v : Bit) : (s.setPin p v).pos = s.pos := by cases p <;> rfl
@[simp] theorem State.setPin_patL (s : State) (p : Pin) (v : Bit) : (s.setPin p v).patL = s.patL := by cases p <;> rfl
@[simp] theorem State.setPin_patR (s : State) (p : Pin) (v : Bit) : (s.setPin p v).patR = s.patR := by cases p <;> rfl
@[simp] theorem State.setPin_entropy (s : State) (p : Pin) (v : Bit) : (s.setPin p v).entropy = s.entropy := by cases p <;> rfl
@[simp] theorem State.setPin_selL (s : State) (p : Pin) (v : Bit) : (s.setPin p v).selL = if p = .selL then v else s.selL := by cases p <;> rfl
@[simp] theorem State.setPin_selR (s : State) (p : Pin) (v : Bit) : (s.setPin p v).selR = if p = .selR then v else s.selR := by cases p <;> rfl
@[simp] theorem State.setPin_sdata (s : State) (p : Pin) (v : Bit) : (s.setPin p v).sdata = if p = .sdata then v else s.sdata := by cases p <;> rfl
@[simp] theorem State.setPin_sclk (s : State) (p : Pin) (v : Bit) : (s.setPin p v).sclk = if p = .sclk then v else s.sclk := by cases p <;> rfl
@[simp] theorem State.setPin_latch (s : State) (p : Pin) (v : Bit) : (s.setPin p v).latch = if p = .latch then v else s.latch := by cases p <;> rfl
@[simp] theorem State.setPin_sphase (s : State) (p : Pin) (v : Bit) : (s.setPin p v).sphase = s.sphase := by cases p <;> rfl
@[simp] theorem State.setPin_armed (s : State) (p : Pin) (v : Bit) : (s.setPin p v).armed = s.armed := by cases p <;> rfl
@[simp] theorem State.setPin_idx (s : State) (p : Pin) (v : Bit) : (s.setPin p v).idx = s.idx := by cases p <;> rfl
@[simp] theorem State.setPin_buf (s : State) (p : Pin) (v : Bit) : (s.setPin p v).buf = s.buf := by cases p <;> rfl
@[simp] theorem State.setPin_acc (s : State) (p : Pin) (v : Bit) : (s.setPin p v).acc = s.acc := by cases p <;> rfl
@[simp] theorem State.setPin_txk (s : State) (p : Pin) (v : Bit) : (s.setPin p v).txk = s.txk := by cases p <;> rfl
@[simp] theorem State.setPin_irmon (s : State) (p : Pin) (v : Bit) : (s.setPin p v).irmon = if p = .irmon then v else s.irmon := by cases p <;> rfl
@[simp] theorem State.setPin_refused (s : State) (p : Pin) (v : Bit) : (s.setPin p v).refused = s.refused := by cases p <;> rfl
@[simp] theorem State.setPin_trace (s : State) (p : Pin) (v : Bit) : (s.setPin p v).trace = s.trace := by cases p <;> rfl
@[simp] theorem State.setPin_cfg (s : State) (p : Pin) (v : Bit) : (s.setPin p v).cfg = s.cfg := by cases p <;> rfl
@[simp] theorem State.setPin_events (s : State) (p : Pin) (v : Bit) : (s.setPin p v).events = s.events := by cases p <;> rfl

/-! ### pinWrite -/

@[simp] theorem State.pinWrite_dispval (s : State) (p : Pin) (v : Bit) : (s.pinWrite p v).dispval = s.dispval := by cases p <;> rfl
@[simp] theorem State.pinWrite_pos (s : State) (p : Pin) (v : Bit) : (s.pinWrite p v).pos = s.pos := by cases p <;> rfl
@[simp] theorem State.pinWrite_patL (s : State) (p : Pin) (v : Bit) : (s.pinWrite p v).patL = s.patL := by cases p <;> rfl
@[simp] theorem State.pinWrite_patR (s : State) (p : Pin) (v : Bit) : (s.pinWrite p v).patR = s.patR := by cases p <;> rfl
@[simp] theorem State.pinWrite_entropy (s : State) (p : Pin) (v : Bit) : (s.pinWrite p v).entropy = s.entropy := by cases p <;> rfl
@[simp] theorem State.pinWrite_selL (s : State) (p : Pin) (v : Bit) : (s.pinWrite p v).selL = if p = .selL then v else s.selL := by cases p <;> rfl
@[simp] theorem State.pinWrite_selR (s : State) (p : Pin) (v : Bit) : (s.pinWrite p v).selR = if p = .selR then v else s.selR := by cases p <;> rfl
@[simp] theorem State.pinWrite_sdata (s : State) (p : Pin) (v : Bit) : (s.pinWrite p v).sdata = if p = .sdata then v else s.sdata := by cases p <;> rfl
@[simp] theorem State.pinWrite_sclk (s : State) (p : Pin) (v : Bit) : (s.pinWrite p v).sclk = if p = .sclk then v else s.sclk := by cases p <;> rfl
@[simp] theorem State.pinWrite_latch (s : State) (p : Pin) (v : Bit) : (s.pinWrite p v).latch = if p = .latch then v else s.latch := by cases p <;> rfl
@[simp] theorem State.pinWrite_sphase (s : State) (p : Pin) (v : Bit) : (s.pinWrite p v).sphase = s.sphase := by cases p <;> rfl
@[simp] theorem State.pinWrite_armed (s : State) (p : Pin) (v : Bit) : (s.pinWrite p v).armed = s.armed := by cases p <;> rfl
@[simp] theorem State.pinWrite_idx (s : State) (p : Pin) (v : Bit) : (s.pinWrite p v).idx = s.idx := by cases p <;> rfl
@[simp] theorem State.pinWrite_buf (s : State) (p : Pin) (v : Bit) : (s.pinWrite p v).buf = s.buf := by cases p <;> rfl
@[simp] theorem State.pinWrite_acc (s : State) (p : Pin) (v : Bit) : (s.pinWrite p v).acc = s.acc := by cases p <;> rfl
@[simp] theorem State.pinWrite_txk (s : State) (p : Pin) (v : Bit) : (s.pinWrite p v).txk = s.txk := by cases p <;> rfl
@[simp] theorem State.pinWrite_irmon (s : State) (p : Pin) (v : Bit) : (s.pinWrite p v).irmon = if p = .irmon then v else s.irmon := by cases p <;> rfl
@[simp] theorem State.pinWrite_refused (s : State) (p : Pin) (v : Bit) : (s.pinWrite p v).refused = s.refused := by cases p <;> rfl
@[simp] theorem State.pinWrite_trace (s : State) (p : Pin) (v : Bit) : (s.pinWrite p v).trace = s.trace ++ [.pin p v] := by cases p <;> rfl
@[simp] theorem State.pinWrite_cfg (s : State) (p : Pin) (v : Bit) : (s.pinWrite p v).cfg = s.cfg := by cases p <;> rfl
@[simp] theorem State.pinWrite_events (s : State) (p : Pin) (v : Bit) : (s.pinWrite p v).events = s.events := by cases p <;> rfl

/-! ### pulse -/

@[simp] theorem State.pulse_dispval (s : State) (p : Pin) : (s.pulse p).dispval = s.dispval := by cases p <;> rfl
@[simp] theorem State.pulse_pos (s : State) (p : Pin) : (s.pulse p).pos = s.pos := by cases p <;> rfl
@[simp] theorem State.pulse_patL (s : State) (p : Pin) : (s.pulse p).patL = s.patL := by cases p <;> rfl
@[simp] theorem State.pulse_patR (s : State) (p : Pin) : (s.pulse p).patR = s.patR := by cases p <;> rfl
@[simp] theorem State.pulse_entropy (s : State) (p : Pin) : (s.pulse p).entropy = s.entropy := by cases p <;> rfl
@[simp] theorem State.pulse_selL (s : State) (p : Pin) : (s.pulse p).selL = if p = .selL then false else s.selL := by cases p <;> rfl
@[simp] theorem State.pulse_selR (s : State) (p : Pin) : (s.pulse p).selR = if p = .selR then false else s.selR := by cases p <;> rfl
@[simp] theorem State.pulse_sdata (s : State) (p : Pin) : (s.pulse p).sdata = if p = .sdata then false else s.sdata := by cases p <;> rfl
@[simp] theorem State.pulse_sclk (s : State) (p : Pin) : (s.pulse p).sclk = if p = .sclk then false else s.sclk := by cases p <;> rfl
@[simp] theorem State.pulse_latch (s : State) (p : Pin) : (s.pulse p).latch = if p = .latch then false else s.latch := by cases p <;> rfl
@[simp] theorem State.pulse_sphase (s : State) (p : Pin) : (s.pulse p).sphase = s.sphase := by cases p <;> rfl
@[simp] theorem State.pulse_armed (s : State) (p : Pin) : (s.pulse p).armed = s.armed := by cases p <;> rfl
@[simp] theorem State.pulse_idx (s : State) (p : Pin) : (s.pulse p).idx = s.idx := by cases p <;> rfl
@[simp] theorem State.pulse_buf (s : State) (p : Pin) : (s.pulse p).buf = s.buf := by cases p <;> rfl
@[simp] theorem State.pulse_acc (s : State) (p : Pin) : (s.pulse p).acc = s.acc := by cases p <;> rfl
@[simp] theorem State.pulse_txk (s : State) (p : Pin) : (s.pulse p).txk = s.txk := by cases p <;> rfl
@[simp] theorem State.pulse_irmon (s : State) (p : Pin) : (s.pulse p).irmon = if p = .irmon then false else s.irmon := by cases p <;> rfl
@[simp] theorem State.pulse_refused (s : State) (p : Pin) : (s.pulse p).refused = s.refused := by cases p <;> rfl
@[simp] theorem State.pulse_trace (s : State) (p : Pin) : (s.pulse p).trace = s.trace ++ [.pin p true, .pin p false] := by cases p <;> simp [State.pulse]
@[simp] theorem State.pulse_cfg (s : State) (p : Pin) : (s.pulse p).cfg = s.cfg := by cases p <;> rfl
@[simp] theorem State.pulse_events (s : State) (p : Pin) : (s.pulse p).events = s.events := by cases p <;> rfl

/-! ### Pins by name -/

theorem State.setPin_pinLevel (s : State) (p q : Pin) (v : Bit) :
    (s.setPin p v).pinLevel q = if p = q then v else s.pinLevel q := by cases p <;> cases q <;> rfl

theorem State.pinWrite_pinLevel (s : State) (p q : Pin) (v : Bit) :
    (s.pinWrite p v).pinLevel q = if p = q then v else s.pinLevel q := by cases p <;> cases q <;> rfl

/-- Two states are equal when they agree on every field. -/
theorem State.ext_fields {s t : State} (h1 : s.dispval = t.dispval) (h2 : s.pos = t.pos) (h3 : s.patL = t.patL)
    (h4 : s.patR = t.patR) (h5 : s.entropy = t.entropy) (h6 : s.selL = t.selL) (h7 : s.selR = t.selR)
    (h8 : s.sdata = t.sdata) (h9 : s.sclk = t.sclk) (h10 : s.latch = t.latch) (h11 : s.sphase = t.sphase)
    (h12 : s.armed = t.armed) (h13 : s.idx = t.idx) (h14 : s.buf = t.buf) (h15 : s.acc = t.acc) (h16 : s.txk = t.txk)
    (h17 : s.irmon = t.irmon) (h18 : s.refused = t.refused) (h19 : s.trace = t.trace) (h20 : s.cfg = t.cfg)
    (h21 : s.events = t.events) : s = t := by
  cases s; cases t; simp_all

end Sys2Proof.Machine
end

