-- ==== Sys2Proof/Laws/Ops.lean ====
section
/-! SUPPORT. What each shared operation can do, once: the guard of a refused state, the queue, the step, and the display
and sampler operations. -/

namespace Sys2Proof.Machine

/-! ### The guard and the queue -/

theorem State.whenLive_live {s : State} (h : s.refused = none) (f : State → Host.Outcome State Fault Refusal) :
    s.whenLive f = f s := by
  unfold State.whenLive
  rw [h]

theorem State.whenLive_refused {s : State} {r : RefuseReason} (h : s.refused = some r)
    (f : State → Host.Outcome State Fault Refusal) : s.whenLive f = .next s := by
  unfold State.whenLive
  rw [h]

/-- What a guarded event that answers a next state did: nothing in a refused state, its own effect in a live one. -/
theorem State.whenLive_next {s t : State} {f : State → Host.Outcome State Fault Refusal} (h : s.whenLive f = .next t) :
    (s.refused ≠ none ∧ t = s) ∨ (s.refused = none ∧ f s = .next t) := by
  cases hr : s.refused with
  | none => rw [State.whenLive_live hr] at h; exact .inr ⟨rfl, h⟩
  | some r => rw [State.whenLive_refused hr] at h; cases h; exact .inl ⟨by simp, rfl⟩

/-- One step: no event waits and nothing changes, or the first event word is applied to the state without it. -/
theorem step_of_events (s : State) :
    (s.events = [] ∧ step s = .next s) ∨
      ∃ w rest, s.events = w :: rest ∧ step s = applyWord w { s with events := rest } := by
  cases h : s.events with
  | nil => exact .inl ⟨rfl, by simp [step, State.takeEvent, h]⟩
  | cons w rest => exact .inr ⟨w, rest, rfl, by simp [step, State.takeEvent, h]⟩

/-- What applying a word to a live state does: its event runs, or the word is refused. -/
theorem applyWord_live {s : State} (h : s.refused = none) (w : EventWord) :
    (∃ i, decodeEvent w = .event i ∧ applyWord w s = exec i s) ∨
      ∃ r, decodeEvent w = .invalid r ∧ applyWord w s = .next (s.refuse r) := by
  unfold applyWord
  rw [State.whenLive_live h]
  cases hd : decodeEvent w with
  | event i => exact .inl ⟨i, rfl, rfl⟩
  | invalid r => exact .inr ⟨r, rfl, rfl⟩

/-- Applying a word to a refused state, whatever the word is. -/
theorem applyWord_refused {s : State} {r : RefuseReason} (h : s.refused = some r) (w : EventWord) :
    applyWord w s = .next s := State.whenLive_refused h _

/-! ### The shift-clock driver -/

/-- The three items of one shifted bit (41_display_multiplexer.md R123). -/
def bitItems (c : Params) (p : Byte) (k : Nat) : List Item :=
  [.pin .sdata (wireBit c p k), .pin .sclk true, .pin .sclk false]

theorem State.shiftBit_eq (s : State) (p : Byte) (k : Nat) :
    s.shiftBit p k =
      { s with sdata := wireBit s.cfg p k, sclk := false, trace := s.trace ++ bitItems s.cfg p k } := by
  simp [State.shiftBit, State.pulse, State.pinWrite, State.setPin, State.emit, bitItems]

/-- Shifting out bits leaves SDATA at the last of them and SCLK idle, and appends the bits' items in order. -/
theorem State.shiftOut_eq (s : State) (p : Byte) (ks : List Nat) (k : Nat) :
    s.shiftOut p (ks ++ [k]) =
      { s with sdata := wireBit s.cfg p k, sclk := false,
               trace := s.trace ++ (ks ++ [k]).flatMap (bitItems s.cfg p) } := by
  induction ks generalizing s with
  | nil => simp [State.shiftOut, State.shiftBit_eq]
  | cons j ks ih =>
    have h : s.shiftOut p (j :: ks ++ [k]) = (s.shiftBit p j).shiftOut p (ks ++ [k]) := by
      simp only [State.shiftOut, List.cons_append, List.foldl_cons]
    rw [h, ih, State.shiftBit_eq]
    simp

theorem State.selectDigit_eq (s : State) (pos : Pos) :
    s.selectDigit pos =
      { s with selL := pos.code, selR := !pos.code,
               trace := s.trace ++ [.pin pos.other.selectPin false, .pin pos.selectPin true] } := by
  cases pos <;>
    simp [State.selectDigit, Pos.other, Pos.selectPin, State.pinWrite, State.setPin, State.emit, Pos.code]

/-- Everything one multiplex tick does. -/
theorem State.muxTick_eq (s : State) :
    s.muxTick =
      { s with
        pos := s.pos.other
        patL := if s.pos.other = .left then segPattern s.cfg s.dispval .left else s.patL
        patR := if s.pos.other = .right then segPattern s.cfg s.dispval .right else s.patR
        entropy := (s.entropy + 1) % 2 ^ s.cfg.entropyWidth
        selL := s.pos.other.code
        selR := !s.pos.other.code
        sdata := wireBit s.cfg (segPattern s.cfg s.dispval s.pos.other) 0
        sclk := false
        latch := false
        trace := s.trace ++ tickItems s.cfg s.pos.other (segPattern s.cfg s.dispval s.pos.other) } := by
  have h8 : shiftOrder = [7, 6, 5, 4, 3, 2, 1] ++ [0] := rfl
  have hT : ∀ c q p, tickItems c q p = [.pin q.other.selectPin false, .pin q.selectPin true] ++
      (([7, 6, 5, 4, 3, 2, 1] ++ [0] : List Nat).flatMap (bitItems c p) ++ [.pin .latch true, .pin .latch false]) :=
    fun _ _ _ => rfl
  rw [hT]
  simp only [State.muxTick, h8, State.shiftOut_eq, State.selectDigit_eq]
  cases s.pos <;>
    simp only [Pos.other, State.setPattern, State.countTick, State.pulse, State.pinWrite, State.setPin, State.emit,
      if_true, reduceCtorEq, if_false, List.append_assoc, List.singleton_append]

/-! ### The sampler -/

/-- Everything a full check can do. -/
theorem State.decodeIfFull_cases (s : State) :
    (s.idx ≠ s.cfg.nSamples ∧ s.decodeIfFull = .next s) ∨
      (s.idx = s.cfg.nSamples ∧ ∃ B, s.buf.readRange 0 s.cfg.nSamples = some B ∧
        s.decodeIfFull = .next (s.beginReport (decodeSamples s.cfg.tol B))) ∨
      (s.idx = s.cfg.nSamples ∧ s.buf.readRange 0 s.cfg.nSamples = none ∧
        s.decodeIfFull = .fault .unwrittenCell) := by
  unfold State.decodeIfFull
  by_cases h : s.idx = s.cfg.nSamples
  · rw [if_pos h]
    cases hB : s.buf.readRange 0 s.cfg.nSamples with
    | none => exact .inr (.inr ⟨h, rfl, rfl⟩)
    | some B => exact .inr (.inl ⟨h, B, rfl, rfl⟩)
  · rw [if_neg h]
    exact .inl ⟨h, rfl⟩

/-- Everything a processed tick can do: it only mirrors, or it also stores and checks for a full buffer. -/
theorem State.sampleTick_cases (s : State) (b : Bit) :
    ((s.armed || b) = false ∧ s.sampleTick b = .next (s.pinWrite .irmon b)) ∨
      ((s.armed || b) = true ∧ s.cfg.nSamples ≤ s.idx ∧
        s.sampleTick b = .next ((s.pinWrite .irmon b).armOn b)) ∨
      ((s.armed || b) = true ∧ s.idx < s.cfg.nSamples ∧
        s.sampleTick b = (((s.pinWrite .irmon b).armOn b).storeSample b).decodeIfFull) := by
  cases ha : (s.armed || b) with
  | false =>
    refine .inl ⟨rfl, ?_⟩
    have h : s.armed = false ∧ b = false := by simpa using ha
    simp [State.sampleTick, State.armOn, h.1, h.2]
  | true =>
    by_cases hi : s.idx < s.cfg.nSamples
    · exact .inr (.inr ⟨rfl, hi, by simp [State.sampleTick, ha, hi]⟩)
    · exact .inr (.inl ⟨rfl, by omega, by simp [State.sampleTick, ha, hi]⟩)

theorem State.afterByte_last {s : State} (h : s.txk = 4) : s.afterByte = s.endReport := by
  simp [State.afterByte, h]

theorem State.afterByte_more {s : State} (h : s.txk ≠ 4) : s.afterByte = { s with txk := s.txk + 1 } := by
  simp [State.afterByte, h]

/-- After a byte is taken: the end of the report, or TXK moves on. -/
theorem State.afterByte_cases (s : State) :
    (s.txk = 4 ∧ s.afterByte = s.endReport) ∨ (s.txk ≠ 4 ∧ s.afterByte = { s with txk := s.txk + 1 }) := by
  by_cases h : s.txk = 4
  · exact .inl ⟨h, State.afterByte_last h⟩
  · exact .inr ⟨h, State.afterByte_more h⟩

/-- Everything a SAMPTICK that answers a next state can have done: nothing, only the mirror, or also a stored sample, with
the report begun when it filled the buffer. -/
theorem execSamptick_next {l : Bit} {s t : State} (h : execSamptick l s = .next t) :
    ((s.refused ≠ none ∨ s.sphase = .report) ∧ t = s) ∨
      (s.refused = none ∧ s.sphase = .capture ∧ ∃ b, b = sampleBit s.cfg l ∧
        (((s.armed || b) = false ∧ t = s.pinWrite .irmon b) ∨
          ((s.armed || b) = true ∧ s.cfg.nSamples ≤ s.idx ∧ t = (s.pinWrite .irmon b).armOn b) ∨
          ((s.armed || b) = true ∧ s.idx < s.cfg.nSamples ∧ s.idx + 1 ≠ s.cfg.nSamples ∧
            t = ((s.pinWrite .irmon b).armOn b).storeSample b) ∨
          ((s.armed || b) = true ∧ s.idx + 1 = s.cfg.nSamples ∧
            ∃ B, (s.buf.write s.idx b).readRange 0 s.cfg.nSamples = some B ∧
              t = (((s.pinWrite .irmon b).armOn b).storeSample b).beginReport (decodeSamples s.cfg.tol B)))) := by
  unfold execSamptick at h
  rcases State.whenLive_next h with ⟨hr, rfl⟩ | ⟨hr, h⟩
  · exact .inl ⟨.inl hr, rfl⟩
  · cases hp : s.sphase with
    | report =>
      simp only [hp, Host.Outcome.next.injEq] at h
      exact .inl ⟨.inr rfl, h.symm⟩
    | capture =>
      simp only [hp] at h
      refine .inr ⟨hr, rfl, _, rfl, ?_⟩
      generalize sampleBit s.cfg l = b at h ⊢
      rcases State.sampleTick_cases s b with ⟨ha, he⟩ | ⟨ha, hi, he⟩ | ⟨ha, hi, he⟩
      · rw [he] at h; cases h; exact .inl ⟨ha, rfl⟩
      · rw [he] at h; cases h; exact .inr (.inl ⟨ha, hi, rfl⟩)
      · rw [he] at h
        rcases State.decodeIfFull_cases (((s.pinWrite .irmon b).armOn b).storeSample b) with
          ⟨hn, he⟩ | ⟨hn, B, hB, he⟩ | ⟨hn, hB, he⟩
        · rw [he] at h; cases h; exact .inr (.inr (.inl ⟨ha, hi, by simpa using hn, rfl⟩))
        · rw [he] at h; cases h
          exact .inr (.inr (.inr ⟨ha, by simpa using hn, B, by simpa using hB, by simp⟩))
        · rw [he] at h; cases h

/-- Everything a TXACK that answers a next state can have done: nothing in a refused state, a refusal in CAPTURE, or one
report byte taken. -/
theorem execTxack_next {s t : State} (h : execTxack s = .next t) :
    (s.refused ≠ none ∧ t = s) ∨ (s.refused = none ∧ s.sphase = .capture ∧ t = s.refuse .txackIdle) ∨
      (s.refused = none ∧ s.sphase = .report ∧
        ∃ a, s.acc = some a ∧ t = (s.emit (.tx (reportByte a s.txk.val))).afterByte) := by
  unfold execTxack at h
  rcases State.whenLive_next h with ⟨hr, rfl⟩ | ⟨hr, h⟩
  · exact .inl ⟨hr, rfl⟩
  · cases hp : s.sphase with
    | capture =>
      simp only [hp, Host.Outcome.next.injEq] at h
      exact .inr (.inl ⟨hr, rfl, h.symm⟩)
    | report =>
      cases ha : s.acc with
      | none => simp [hp, State.txData, ha] at h
      | some a =>
        simp only [hp, State.txData, ha, Option.map_some, Host.Outcome.next.injEq] at h
        exact .inr (.inr ⟨hr, rfl, a, rfl, h.symm⟩)

/-! ### Runs -/

theorem run_zero (s : State) : core.run 0 s = .next s := rfl

/-- A run whose first step answers a next state goes on from it. -/
theorem run_next {k : Nat} {s t : State} (h : step s = .next t) : core.run (k + 1) s = core.run k t := by
  have h' : core.step s = .next t := h
  simp only [Host.Core.run, h']

end Sys2Proof.Machine
end

