-- ==== Sys2Proof/Laws/PerInstr.lean ====
section
/-! SUPPORT. Facts made per event, about the event as syntax. -/

namespace Sys2Proof.Laws.EncodedFields

/-- The word of an event carries its OP in bits 15:12, zero in bits 11:8 and its DATA in bits 7:0 (30_encoding.md R70). -/
def Statement (i : Instr) : Prop := opField (encode i) = i.op ∧ rsvField (encode i) = 0 ∧ dataField (encode i) = i.data

theorem fields_of_append (op : BitVec 4) (data : Byte) :
    opField (op ++ (0 : BitVec 4) ++ data) = op ∧ rsvField (op ++ (0 : BitVec 4) ++ data) = 0 ∧
      dataField (op ++ (0 : BitVec 4) ++ data) = data := by
  unfold opField rsvField dataField
  refine ⟨?_, ?_, ?_⟩ <;>
    · apply BitVec.eq_of_getLsbD_eq
      intro j hj
      simp only [BitVec.getLsbD_extractLsb', BitVec.getLsbD_append]
      simp
      grind

theorem wrdisp (value : Byte) : Statement (.wrdisp value) := fields_of_append _ _

theorem muxtick : Statement .muxtick := fields_of_append _ _

theorem samptick (level : Bit) : Statement (.samptick level) := fields_of_append _ _

theorem txack : Statement .txack := fields_of_append _ _

theorem rdent : Statement .rdent := fields_of_append _ _

theorem reset : Statement .reset := fields_of_append _ _

end Sys2Proof.Laws.EncodedFields
end

