-- ==== Sys2Proof/Tests/Slice0.lean ====
section
/-! SUPPORT. The model's own tests. Every expected value is taken from spec/95_test_vectors.md (its id is named) or from
the rule that is named. -/

namespace Sys2Proof.Tests

open Sys2Proof.Machine

/-! ### Ill-formed terms -/

theorem test_wellFormed_wrdisp_256 : (AsmLine.wrdisp 256).wellFormed = false := by decide

theorem test_wellFormed_samp_2 : (AsmLine.samp 2).wellFormed = false := by decide

theorem test_wellFormed_word_wide : (AsmLine.word 65536).wellFormed = false := by decide

theorem test_wellFormed_sampl_2 : (AsmLine.sampl 2).wellFormed = false := by decide

theorem test_wellFormed_rep_0 : (AsmLine.rep 0 .mux).wellFormed = false := by decide

theorem test_wellFormed_rep_inner : (AsmLine.rep 2 (.wrdisp 999)).wellFormed = false := by decide

/-! ### Decoding (V-ENC-1 to V-ENC-20; the words bit by bit from 30_encoding.md R72) -/

theorem test_decode_wrdisp : decodeEvent 0b0001_0000_0010_1111 = .event (.wrdisp 47) := by decide

theorem test_decode_muxtick : decodeEvent 0b0010_0000_0000_0000 = .event .muxtick := by decide

theorem test_decode_samptick_low : decodeEvent 0b0011_0000_0000_0000 = .event (.samptick false) := by decide

theorem test_decode_samptick_high : decodeEvent 0b0011_0000_0000_0001 = .event (.samptick true) := by decide

theorem test_decode_txack : decodeEvent 0b0100_0000_0000_0000 = .event .txack := by decide

theorem test_decode_rdent : decodeEvent 0b0101_0000_0000_0000 = .event .rdent := by decide

theorem test_decode_reset : decodeEvent 0b1111_0000_0000_0000 = .event .reset := by decide

theorem test_decode_reserved_op : decodeEvent 0x0000 = .invalid .reservedOp ∧ decodeEvent 0xE123 = .invalid .reservedOp ∧
    decodeEvent 0x0100 = .invalid .reservedOp := by decide

theorem test_decode_rsv : decodeEvent 0x2100 = .invalid .rsvNonzero ∧ decodeEvent 0x1F2F = .invalid .rsvNonzero ∧
    decodeEvent 0x4100 = .invalid .rsvNonzero := by decide

theorem test_decode_data : decodeEvent 0x3002 = .invalid .dataNonzero ∧ decodeEvent 0x2001 = .invalid .dataNonzero ∧
    decodeEvent 0x5080 = .invalid .dataNonzero ∧ decodeEvent 0xF001 = .invalid .dataNonzero := by decide

theorem test_decodeTableWord : decodeTableWord 16 0x102F = some (.wrdisp 47) ∧ decodeTableWord 16 0x6000 = none := by
  decide

/-! ### Helpers: the parameters of the vectors (section 0) and one step on a state -/

/-- REF_SEG_TABLE, SEG_POLARITY = 0, IR_ACTIVE_LOW = true, ENTROPY_WIDTH = 16, with N_SAMPLES and TOL given. -/
def vectorCfg (n tol : Nat) : Params where
  nSamples := n
  tol := tol
  segTable := Config.refSegTable
  segPolarity := false
  irActiveLow := true
  entropyWidth := 16

/-- The reset state of that build. -/
def vectorReset (n tol : Nat) : State := { State.reset with cfg := vectorCfg n tol }

/-- What a check says of the next state an event leads to; false for a fault or a refusal. -/
def after (o : Host.Outcome State Fault Refusal) (check : State → Bool) : Bool :=
  match o with
  | .next t => check t
  | .fault _ => false
  | .refused _ => false

/-! ### The encoder (V-SEG, V-DIG) -/

theorem test_segEncode : segEncode (vectorCfg 512 3) (.num 4) = 0x66 ∧ segEncode (vectorCfg 512 3) (.num 10) = 0x00 ∧
    segEncode (vectorCfg 512 3) .blank = 0x00 := by decide

theorem test_digitOf : digitOf 47 .left = .num 4 ∧ digitOf 5 .left = .num 0 ∧ digitOf 99 .right = .num 9 ∧
    digitOf 100 .right = .blank := by decide

/-! ### The display events -/

/-- V-WR-1. -/
theorem test_wrdisp : after (exec (.wrdisp 47) (vectorReset 512 3))
    (fun t => t.dispval == 0x2F && t.trace == [] && t.patL == 0) = true := by decide

/-- V-MUX-1, with the first nine items of its table. -/
theorem test_muxtick_left : after (exec .muxtick { vectorReset 512 3 with dispval := 47 })
    (fun t => t.pos == .left && t.patL == 0x66 && t.patR == 0x00 && t.selL && !t.selR && !t.sdata && !t.sclk &&
      !t.latch && t.entropy == 1 && t.trace.length == 28 && t.trace.take 9 == [.pin .selR false, .pin .selL true,
        .pin .sdata false, .pin .sclk true, .pin .sclk false, .pin .sdata true, .pin .sclk true, .pin .sclk false,
        .pin .sdata true]) = true := by decide

/-- V-MUX-4 with the wrap of V-MUX-6: SEG_POLARITY = 1 inverts the wire bits, not the pattern. -/
theorem test_muxtick_polarity : after (exec .muxtick { vectorReset 512 3 with
      dispval := 47, entropy := 0xFFFF, cfg := { vectorCfg 512 3 with segPolarity := true } })
    (fun t => t.patL == 0x66 && t.sdata && t.entropy == 0 &&
      (t.trace.filterMap fun x => match x with | .pin .sdata v => some v | _ => none) ==
        [true, false, false, true, true, false, false, true]) = true := by decide

/-- V-RD-2, the last event. -/
theorem test_rdent : after (exec .rdent { vectorReset 512 3 with entropy := 3 })
    (fun t => t.trace == [.rd 3] && t.entropy == 3) = true := by decide

/-! ### The sampler events -/

/-- V-SMP-2: the arming sample is stored. -/
theorem test_samptick_arms : after (exec (.samptick false) (vectorReset 16 3))
    (fun t => t.irmon && t.armed && t.idx == 1 && t.buf.read 0 == some true && t.trace == [.pin .irmon true]) = true := by
  decide

/-- V-SMP-6: with N_SAMPLES = 1 the arming tick fills the buffer and decodes at once. -/
theorem test_samptick_fills : after (exec (.samptick false) (vectorReset 1 3))
    (fun t => t.sphase == .report && t.idx == 1 && t.acc == some 0 && t.txk == 0) = true := by decide

/-- V-DEC-7. -/
theorem test_decode_tolerance : decodeSamples 3 [true, true, true, true, true, true, false, true, false, true, true, true,
    true, true, false, true] = 5 := by decide

/-- V-DEC-3 and V-DEC-4: a tie is 0 for TOL = 0, one more is 1. -/
theorem test_decode_tie : decodeSamples 0 [true, true, false, false, true] = 0 ∧
    decodeSamples 0 [true, true, true, false, false, true] = 1 := by decide

/-- V-TX-1, the first byte. -/
theorem test_txack_first : after (exec .txack { vectorReset 4 0 with
      sphase := .report, idx := 4, armed := true, acc := some 0x123456789A })
    (fun t => t.trace == [.tx 0x9A] && t.txk == 1 && t.sphase == .report) = true := by decide

/-- V-TX-1, the fifth byte. -/
theorem test_txack_last : after (exec .txack { vectorReset 4 0 with
      sphase := .report, idx := 4, armed := true, acc := some 0x123456789A, txk := 4 })
    (fun t => t.trace == [.tx 0x12] && t.txk == 0 && t.sphase == .capture && t.idx == 0 && !t.armed &&
      t.acc == none) = true := by decide

/-! ### Reset and refusal -/

/-- V-RST-1 on a state in REPORT. -/
theorem test_reset : after (exec .reset { vectorReset 4 0 with
      dispval := 9, sphase := .report, idx := 4, armed := true, acc := some 7, txk := 2, trace := [.tx 0] })
    (fun t => t == { vectorReset 4 0 with trace := [.tx 0, .rst] }) = true := by decide

/-- V-TX-2, and V-REF-1: after the refusal a RESET changes nothing. -/
theorem test_refused : after (exec .txack (vectorReset 4 0)) (fun t => t == { vectorReset 4 0 with
      refused := some .txackIdle } && after (exec .reset t) (fun u => u == t)) = true := by decide

/-- V-REF-1: a reserved word. -/
theorem test_step_reserved : after (step ((vectorReset 4 0).withFetchWord 16 0x0000))
    (fun t => t == { vectorReset 4 0 with refused := some .reservedOp }) = true := by decide

/-- The first step after reset runs the word that was placed, on the hardware as built. -/
theorem test_step_first : after (step (State.reset.withFetchWord 16 0x2000))
    (fun t => t.pos == .left && t.entropy == 1 && t.events == []) = true := by decide

/-! ### The assembler -/

theorem test_assemble : assembleText true ['w', 'r', 'd', 'i', 's', 'p', ' ', '0', 'x', 'F', 'f', ' ', ';', 'x'] =
    some [0x10FF#16] := by decide

/-- R79: with IR_ACTIVE_LOW = true, `sampl 1` is 0x3000. -/
theorem test_assemble_rep : assembleText true ['r', 'e', 'p', ' ', '2', ' ', 's', 'a', 'm', 'p', 'l', ' ', '1'] =
    some [0x3000#16, 0x3000#16] := by decide

theorem test_disassemble_reserved : disassemble 0x2101 = ['.', 'w', 'o', 'r', 'd', ' ', '0', 'x', '2', '1', '0', '1', ' ',
    ';', ' ', 'i', 'n', 'v', 'a', 'l', 'i', 'd', ' ', 'R', 'S', 'V', '_', 'N', 'O', 'N', 'Z', 'E', 'R', 'O'] := by decide

/-! ### Witnesses: states and operands that meet the hypotheses of the statements -/

/-- An armed capture with one sample stored, of `n`. -/
def armedState (n : Nat) : State :=
  { vectorReset n 0 with armed := true, idx := 1, buf := [(0, true)], irmon := true, trace := [.pin .irmon true] }

/-- A report of the buffer 11, with `k` bytes taken. -/
def reportState (k : Fin 5) : State :=
  { vectorReset 2 0 with
    armed := true, idx := 2, buf := [(0, true), (1, true)], irmon := true, sphase := .report, acc := some 0, txk := k
    trace := [.pin .irmon true, .pin .irmon true] }

/-- A refused state. -/
def refusedState : State := { vectorReset 2 0 with refused := some .reservedOp }

theorem exists_next {o : Host.Outcome State Fault Refusal} (h : after o (fun _ => true) = true) : ∃ t, o = .next t := by
  cases o with
  | next t => exact ⟨t, rfl⟩
  | fault r => cases h
  | refused r => cases h

theorem blank_patterns (c : Params) (pos : Pos) : ∃ v, (0x00 : Byte) = segPattern c v pos := by
  refine ⟨0xFF, ?_⟩
  cases pos <;> simp [segPattern, digitOf, segEncode]

theorem inv_vectorReset : (vectorReset 2 0).Inv where
  params := by decide
  display := ⟨by decide, rfl, rfl, .inl ⟨rfl, rfl, rfl⟩, fun pos => by cases pos <;> exact blank_patterns _ _⟩
  sampler := ⟨by decide, by decide, by decide, by decide, by decide, fun _ => ⟨by decide, rfl, rfl⟩, fun h => nomatch h⟩

theorem inv_armedState : (armedState 2).Inv where
  params := by decide
  display := ⟨by decide, rfl, rfl, .inl ⟨rfl, rfl, rfl⟩, fun pos => by cases pos <;> exact blank_patterns _ _⟩
  sampler := ⟨by decide, by decide, by decide, by decide, by decide, fun _ => ⟨by decide, rfl, rfl⟩, fun h => nomatch h⟩

theorem inv_reportState : (reportState 4).Inv where
  params := by decide
  display := ⟨by decide, rfl, rfl, .inl ⟨rfl, rfl, rfl⟩, fun pos => by cases pos <;> exact blank_patterns _ _⟩
  sampler := ⟨by decide, by decide, by decide, by decide, by decide, (fun h => nomatch h), fun _ => ⟨rfl, _, rfl, rfl⟩⟩

theorem witness_DecodeAndEncodeAgree : (Instr.wrdisp 255).wellFormed = true ∧ (Instr.samptick true).wellFormed = true ∧
    decodeEvent 0x10FF = .event (.wrdisp 255) ∧ decodeEvent 0xF000 = .event .reset := by decide

theorem witness_PseudoInstructionsExpand : (0 : Nat) ≤ 1 ∧ (1 : Nat) ≤ 1 := by decide

theorem witness_AssemblerAgreesWithEncoder : (255 : Nat) ≤ 255 ∧ (0 : Nat) ≤ 255 ∧ (1 : Nat) ≤ 1 := by decide

theorem witness_StepRunsTheDecodedEvent :
    ((vectorReset 2 0).deliver [0x2000]).events = 0x2000#16 :: [] ∧ ((vectorReset 2 0).deliver [0x2000]).refused = none ∧
      decodeEvent 0x2000 = .event .muxtick ∧ 0xF000 < 65536 ∧ decodeEvent (BitVec.ofNat 16 0xF000) = .event .reset ∧
      (vectorReset 2 0).events = [] := by decide

/-- The reserved word in a live state, and a legal one in a refused state. -/
theorem witness_StepRunsTheDecodedEvent_refusal :
    ((vectorReset 2 0).deliver [0x0000, 0x2000]).events = 0x0000#16 :: [0x2000#16] ∧
      ((vectorReset 2 0).deliver [0x0000, 0x2000]).refused = none ∧ decodeEvent 0x0000 = .invalid .reservedOp ∧
      (refusedState.deliver [0xF000]).events = 0xF000#16 :: [] ∧ (refusedState.deliver [0xF000]).refused ≠ none ∧
      0xFFFF < 65536 ∧ decodeEvent (BitVec.ofNat 16 0xFFFF) = .invalid .rsvNonzero := by decide

/-- The zero word is refused and not dropped (30_encoding.md R75), and the event after it has no effect (60_exceptions.md
R203). -/
theorem test_step_refuses_zero_word :
    core.run 2 ((vectorReset 2 0).deliver [0x0000, 0x102F]) = .next refusedState := rfl

theorem witness_RefusalMarksAndFreezes :
    (vectorReset 2 0).refused = none ∧ (vectorReset 2 0).sphase = .capture ∧ decodeEvent 0xE000 = .invalid .reservedOp ∧
      decodeEvent 0x1F00 = .invalid .rsvNonzero ∧ decodeEvent 0x3002 = .invalid .dataNonzero ∧
      refusedState.refused ≠ none := by decide

theorem witness_RefusalMarksAndFreezes_only : ∃ t, exec .txack (vectorReset 2 0) = .next t ∧ t.refused ≠ none :=
  ⟨_, rfl, by decide⟩

/-- Each event answers a next state somewhere, from a live state: the hypothesis of the frame statements. -/
theorem witness_next : (∃ t, exec (.wrdisp 47) (vectorReset 2 0) = .next t) ∧ (∃ t, exec .muxtick (vectorReset 2 0) = .next t) ∧
    (∃ t, exec (.samptick false) (vectorReset 2 0) = .next t) ∧ (∃ t, exec .txack (reportState 0) = .next t) ∧
    (∃ t, exec .rdent (vectorReset 2 0) = .next t) ∧ (∃ t, exec .reset (vectorReset 2 0) = .next t) :=
  ⟨⟨_, rfl⟩, ⟨_, rfl⟩, ⟨_, rfl⟩, ⟨_, rfl⟩, ⟨_, rfl⟩, ⟨_, rfl⟩⟩

theorem witness_EventsKeepParameters : ∃ t, exec .muxtick (vectorReset 2 0) = .next t := ⟨_, rfl⟩

theorem witness_TraceGrowsByTheEventsItems :
    (vectorReset 2 0).refused = none ∧ (reportState 0).refused = none ∧
      (∃ t, exec (.samptick true) (reportState 0) = .next t) ∧ ∃ t, exec (.samptick true) (vectorReset 2 0) = .next t :=
  ⟨rfl, rfl, ⟨_, rfl⟩, ⟨_, rfl⟩⟩

/-- The one hypothesis of the display statements: a live state, in either position and phase. -/
theorem witness_live : (vectorReset 2 0).refused = none ∧ (vectorReset 2 0).pos = .right ∧
    ({ vectorReset 2 0 with pos := .left } : State).refused = none ∧ (reportState 4).refused = none := by decide

theorem witness_WrdispSetsDispvalOnly : (vectorReset 2 0).refused = none := rfl

theorem witness_MuxtickServicesTheOtherDigit : (vectorReset 2 0).refused = none ∧ (vectorReset 2 0).pos = .right ∧
    ({ vectorReset 2 0 with pos := .left } : State).refused = none := by decide

theorem witness_MuxtickItemsByNumber : (vectorReset 2 0).refused = none ∧ (0 : Nat) < 8 ∧ (7 : Nat) < 8 := by decide

theorem witness_MuxtickNeverBlocks : (reportState 0).refused = none := rfl

theorem witness_OneSelectLinePerTick : (vectorReset 2 0).refused = none ∧ (∃ t, exec .muxtick (vectorReset 2 0) = .next t) ∧
    (∃ t, exec .rdent (vectorReset 2 0) = .next t) ∧ ∃ t, exec .reset (vectorReset 2 0) = .next t :=
  ⟨rfl, ⟨_, rfl⟩, ⟨_, rfl⟩, ⟨_, rfl⟩⟩

theorem witness_EntropyCountsTicksOnly : ∃ t, exec .muxtick { vectorReset 2 0 with entropy := 0xFFFF } = .next t ∧
    t.entropy = 0 := ⟨_, rfl, by decide⟩

theorem witness_RdentOnlyReportsEntropy : (vectorReset 2 0).refused = none := rfl

theorem witness_HostAccessesAreIdempotent : (vectorReset 2 0).refused = none := rfl

theorem witness_EncoderIsTotal : (0 : Nat) < 10 ∧ (9 : Nat) < 10 ∧ 10 ≤ (10 : Nat) := by decide

theorem witness_DisplayValueSplitsIntoDigits : (0 : Byte).toNat ≤ 99 ∧ (99 : Byte).toNat ≤ 99 ∧ 100 ≤ (100 : Byte).toNat ∧
    100 ≤ (255 : Byte).toNat := by decide

/-- REF_SEG_TABLE is a legal SEG_TABLE (40_segment_encoder.md R106), and two values agree on both patterns when equal. -/
theorem witness_PatternsTellValuesApart : (vectorCfg 2 0).segTableLegal ∧ (99 : Byte).toNat ≤ 99 ∧
    segPattern (vectorCfg 2 0) 99 .left = segPattern (vectorCfg 2 0) 99 .left := by decide

theorem witness_PatternRegistersShowDispval : (vectorReset 2 0).refused = none ∧
    (∃ t, exec .muxtick (vectorReset 2 0) = .next t) ∧ (∃ t, exec (.wrdisp 5) (vectorReset 2 0) = .next t) ∧
      ∃ t, exec .reset (vectorReset 2 0) = .next t := ⟨rfl, ⟨_, rfl⟩, ⟨_, rfl⟩, ⟨_, rfl⟩⟩

theorem witness_WriteBetweenTicksTearsTheDisplay : (vectorReset 2 0).refused = none ∧ (vectorReset 2 0).pos = .right := by
  decide

theorem witness_SamplerIgnoresTheDisplay : ((Instr.samptick true).agent = .samptimer ∧
    ∃ t, exec (.samptick true) (vectorReset 2 0) = .next t) ∧ Instr.txack.agent = .serial ∧
      ∃ t, exec .txack (reportState 4) = .next t := ⟨⟨rfl, _, rfl⟩, rfl, _, rfl⟩

theorem witness_SampleTickInReportIsDropped : (reportState 0).sphase = .report := rfl

/-- IR_ACTIVE_LOW = true and a high pin. -/
theorem witness_IdleSampleIsOnlyMirrored : (vectorReset 2 0).refused = none ∧ (vectorReset 2 0).sphase = .capture ∧
    (vectorReset 2 0).armed = false ∧ true = (vectorReset 2 0).cfg.irActiveLow := by decide

/-- The arming sample, and an armed sample of 0 with one free cell left over. -/
theorem witness_ArmedSampleIsStored : ((vectorReset 2 0).refused = none ∧ (vectorReset 2 0).sphase = .capture ∧
      true = (if (vectorReset 2 0).cfg.irActiveLow then !false else false) ∧
      ((vectorReset 2 0).armed = true ∨ true = true) ∧ (vectorReset 2 0).idx + 1 < (vectorReset 2 0).cfg.nSamples) ∧
    (armedState 3).refused = none ∧ (armedState 3).sphase = .capture ∧
      false = (if (armedState 3).cfg.irActiveLow then !true else true) ∧ (armedState 3).armed = true ∧
      (armedState 3).idx + 1 < (armedState 3).cfg.nSamples := by decide

/-- The last cell of two, and N_SAMPLES = 1, where the arming sample fills the buffer. -/
theorem witness_FillingSampleStartsTheReport : ((armedState 2).refused = none ∧ (armedState 2).sphase = .capture ∧
      false = (if (armedState 2).cfg.irActiveLow then !true else true) ∧ (armedState 2).armed = true ∧
      (armedState 2).idx + 1 = (armedState 2).cfg.nSamples ∧ (armedState 2).buf.readRange 0 (armedState 2).idx = some [true]) ∧
    (vectorReset 1 0).idx + 1 = (vectorReset 1 0).cfg.nSamples ∧
      (vectorReset 1 0).buf.readRange 0 (vectorReset 1 0).idx = some [] := by decide

theorem witness_FullBufferIsNeverWritten : (reportState 0).cfg.nSamples ≤ (reportState 0).idx := by decide

theorem witness_OnlyTheCellAtIdxIsWritten : (∃ t, exec (.samptick true) (armedState 3) = .next t) ∧ 0 ≠ (armedState 3).idx ∧
    Instr.txack.agent ≠ .samptimer ∧ (∃ t, exec .txack (reportState 4) = .next t) ∧
      ∃ t, exec .reset (reportState 4) = .next t := ⟨⟨_, rfl⟩, by decide, by decide, ⟨_, rfl⟩, ⟨_, rfl⟩⟩

theorem witness_ArmedChangesAreTheListedOnes :
    (∃ t, exec (.samptick (!(vectorReset 2 0).cfg.irActiveLow)) (vectorReset 2 0) = .next t ∧ t.armed = true) ∧
      (∃ t, exec .txack (reportState 4) = .next t ∧ (reportState 4).armed = true ∧ t.armed = false) ∧
      ∃ t, exec .reset (armedState 2) = .next t ∧ t.armed = false :=
  ⟨⟨_, rfl, by decide⟩, ⟨_, rfl, by decide, by decide⟩, ⟨_, rfl, by decide⟩⟩

theorem witness_TxackTakesOneReportByte : (reportState 0).refused = none ∧ (reportState 0).sphase = .report ∧
    (reportState 0).acc = some 0 ∧ (reportState 0).txk ≠ 4 ∧ (reportState 3).txk ≠ 4 ∧ (reportState 4).txk = 4 ∧
      (vectorReset 2 0).sphase = .capture := by decide

theorem witness_OfferedByteIsTheOneTaken : (reportState 4).Inv ∧ (reportState 4).refused = none ∧
    (reportState 4).txData = some 0 := ⟨inv_reportState, by decide, by decide⟩

theorem witness_FiveTxacksSendTheLowFortyBits :
    ((reportState 0).deliver (List.replicate 5 0x4000#16 ++ [])).events = List.replicate 5 0x4000#16 ++ [] ∧
      (reportState 0).refused = none ∧ (reportState 0).sphase = .report ∧ (reportState 0).acc = some 0 ∧
      (reportState 0).txk = 0 := by decide

theorem witness_UnacceptedReportStaysPending : ((reportState 0).deliver [0x3000, 0x0000]).sphase = .report ∧
    ∀ w ∈ ((reportState 0).deliver [0x3000, 0x0000]).events, w ≠ 0x4000#16 ∧ w ≠ 0xF000#16 :=
  ⟨rfl, by simp [State.deliver, reportState, vectorReset, State.reset]⟩

theorem witness_PairDecodesByStrictExcess : (1 : Nat) ≤ 1 := by decide

theorem witness_DecodeHasTheClosedForm : 1 ≤ 1 ∧ ∀ r ∈ [(6, 1), (1, 1), (5, 1)], 1 ≤ r.1 ∧ 1 ≤ r.2 := by decide

theorem witness_RoundTripOfUpTo64Bits : [true, false].length ≤ 64 ∧
    List.Forall₂ (fun p (r : Nat × Nat) => 1 ≤ r.1 ∧ 1 ≤ r.2 ∧ (p = true ↔ r.1 > r.2 + 3)) [true, false] [(5, 1), (1, 1)] ∧
      1 ≤ 1 ∧ ([(5, 1), (1, 1)].flatMap (fun r => markSpace r.1 r.2) ++ List.replicate 1 true ++
        List.replicate 2 false).length = 11 :=
  ⟨by decide, .cons (by decide) (.cons (by decide) .nil), by decide, by decide⟩

theorem witness_ResetPutsEveryRegister : (reportState 2).refused = none ∧ refusedState.refused ≠ none := by decide

theorem witness_PowerOnIsTheResetState : ({ State.reset with dispval := 3 } : State).refused = none ∧
    ({ State.reset with dispval := 3 } : State).cfg = Config.built := ⟨rfl, rfl⟩

theorem witness_EachFieldHasOneWriter : (∃ t, exec .txack (reportState 1) = .next t) ∧ (reportState 1).sphase = .report ∧
    (∃ t, exec .txack (vectorReset 2 0) = .next t) ∧ (vectorReset 2 0).sphase = .capture ∧
      ∃ t, exec (.samptick true) (reportState 1) = .next t := ⟨⟨_, rfl⟩, rfl, ⟨_, rfl⟩, rfl, ⟨_, rfl⟩⟩

theorem witness_DisplayAndSamplerEventsCommute : (reportState 4).Inv ∧ (reportState 4).refused = none ∧
    Instr.muxtick.agent = .muxtimer ∧ Instr.txack.agent = .serial ∧ (reportState 4).sphase = .report ∧
      (armedState 2).Inv ∧ (Instr.samptick true).agent = .samptimer :=
  ⟨inv_reportState, rfl, rfl, rfl, rfl, inv_armedState, rfl⟩

theorem witness_FullIsTheReportPhase : (vectorReset 2 0).Inv ∧ (reportState 4).Inv := ⟨inv_vectorReset, inv_reportState⟩

/-- A step that fills the buffer, from a state that meets the invariant. -/
theorem witness_StepKeepsTheMachineInvariant : ((armedState 2).withFetchWord 16 0x3001).Inv ∧
    ∃ t, step ((armedState 2).withFetchWord 16 0x3001) = .next t :=
  ⟨⟨inv_armedState.params, ⟨inv_armedState.display.entropy_lt, rfl, rfl, inv_armedState.display.select,
      inv_armedState.display.patterns⟩, ⟨inv_armedState.sampler.buf_wf, inv_armedState.sampler.buf_range,
      inv_armedState.sampler.written, inv_armedState.sampler.unarmed, inv_armedState.sampler.armed,
      inv_armedState.sampler.capture, inv_armedState.sampler.report⟩⟩, exists_next (by decide)⟩

theorem witness_NoEventFaultsOrHalts : ((armedState 2).withFetchWord 16 0x3001).Inv :=
  witness_StepKeepsTheMachineInvariant.1

theorem witness_StepKeepsBufferTheLastSamples : (armedState 2).Inv ∧ (armedState 2).BufferIsMirror ∧
    ∃ t, step (armedState 2) = .next t := ⟨inv_armedState, ⟨[], [true], rfl, rfl, rfl⟩, _, rfl⟩

theorem witness_StepKeepsPinsAsTraced : (armedState 2).PinsFollowTrace ∧ ∃ t, step (armedState 2) = .next t :=
  ⟨fun p => by cases p <;> rfl, _, rfl⟩

theorem witness_CaptureDecodesExactlyItsSamples : ∃ s : State, s.Inv ∧ s.refused = none ∧ s.sphase = .capture ∧
    s.armed = false ∧ [true, false].length = s.cfg.nSamples ∧ [true, false].head? = some true ∧
      s.events = [true, false].map (sampleWord s.cfg) ++ [] :=
  ⟨{ vectorReset 2 0 with events := [0x3000, 0x3001] },
    ⟨inv_vectorReset.params, ⟨inv_vectorReset.display.entropy_lt, rfl, rfl, inv_vectorReset.display.select,
      inv_vectorReset.display.patterns⟩, ⟨inv_vectorReset.sampler.buf_wf, inv_vectorReset.sampler.buf_range,
      inv_vectorReset.sampler.written, inv_vectorReset.sampler.unarmed, inv_vectorReset.sampler.armed,
      inv_vectorReset.sampler.capture, inv_vectorReset.sampler.report⟩⟩, rfl, rfl, rfl, rfl, rfl, by decide⟩

theorem witness_TickLightsThePatternOnItsDigit : (vectorReset 2 0).refused = none := rfl

theorem witness_NewDigitGhostsUntilTheLatch : (vectorReset 2 0).refused = none ∧ 2 ≤ 2 ∧ 2 ≤ 26 ∧ 26 ≤ 26 := by decide

end Sys2Proof.Tests
end

section
/-! PROOFS. The statements about single registers of 10_state.md: the select lines (R26) and ARMED (R31). The layer below
says what each event can do, and which half of the state it leaves alone (R47). -/

namespace Sys2Proof.Machine

/-! ### What a guarded event without a choice can do -/

/-- A guarded event that always answers `g`: nothing in a refused state, `g` in a live one. -/
theorem State.whenLive_next_map {s t : State} {g : State → State} (h : (s.whenLive fun s => .next (g s)) = .next t) :
    (s.refused ≠ none ∧ t = s) ∨ (s.refused = none ∧ t = g s) := by
  rcases State.whenLive_next h with ⟨hr, rfl⟩ | ⟨hr, h⟩
  · exact .inl ⟨hr, rfl⟩
  · cases h; exact .inr ⟨hr, rfl⟩

theorem execWrdisp_next {v : Byte} {s t : State} (h : execWrdisp v s = .next t) :
    (s.refused ≠ none ∧ t = s) ∨ (s.refused = none ∧ t = { s with dispval := v }) := State.whenLive_next_map h

theorem execMuxtick_next {s t : State} (h : execMuxtick s = .next t) :
    (s.refused ≠ none ∧ t = s) ∨ (s.refused = none ∧ t = s.muxTick) := State.whenLive_next_map h

theorem execRdent_next {s t : State} (h : execRdent s = .next t) :
    (s.refused ≠ none ∧ t = s) ∨ (s.refused = none ∧ t = s.emit (.rd s.entropyOut)) := State.whenLive_next_map h

theorem execReset_next {s t : State} (h : execReset s = .next t) :
    (s.refused ≠ none ∧ t = s) ∨ (s.refused = none ∧ t = s.resetRegisters.emit .rst) := State.whenLive_next_map h

/-- RESET of a live state. -/
theorem execReset_next_live {s t : State} (hr : s.refused = none) (h : execReset s = .next t) :
    t = s.resetRegisters.emit .rst := by
  rcases execReset_next h with ⟨hn, -⟩ | ⟨-, rfl⟩
  · exact absurd hr hn
  · rfl

/-! ### The display fields: only MUXTICK and RESET write them -/

theorem State.sameDisplay_refl (s : State) : s.sameDisplay s := by simp [State.sameDisplay]

/-- A SAMPTICK leaves the display's fields (10_state.md R47). -/
theorem execSamptick_sameDisplay {l : Bit} {s t : State} (h : execSamptick l s = .next t) : s.sameDisplay t := by
  rcases execSamptick_next h with ⟨-, rfl⟩ | ⟨-, -, b, -, hmirror | hfull | hstore | hfill⟩
  · exact t.sameDisplay_refl
  · obtain ⟨-, rfl⟩ := hmirror
    simp [State.sameDisplay]
  · obtain ⟨-, -, rfl⟩ := hfull
    simp [State.sameDisplay]
  · obtain ⟨-, -, -, rfl⟩ := hstore
    simp [State.sameDisplay]
  · obtain ⟨-, -, B, -, rfl⟩ := hfill
    simp [State.sameDisplay]

theorem State.afterByte_sameDisplay (s : State) : s.sameDisplay s.afterByte := by
  rcases s.afterByte_cases with ⟨-, he⟩ | ⟨-, he⟩ <;> rw [he] <;> simp [State.sameDisplay]

/-- A TXACK leaves the display's fields (10_state.md R47). -/
theorem execTxack_sameDisplay {s t : State} (h : execTxack s = .next t) : s.sameDisplay t := by
  rcases execTxack_next h with ⟨-, rfl⟩ | ⟨-, -, rfl⟩ | ⟨-, -, a, -, rfl⟩
  · exact t.sameDisplay_refl
  · simp [State.sameDisplay]
  · exact (s.emit (.tx (reportByte a s.txk.val))).afterByte_sameDisplay

/-- Every event but MUXTICK and RESET leaves the display's fields (10_state.md R47). -/
theorem exec_sameDisplay {i : Instr} {s t : State} (hm : i ≠ .muxtick) (hr : i ≠ .reset) (h : exec i s = .next t) :
    s.sameDisplay t := by
  cases i with
  | wrdisp v => rcases execWrdisp_next h with ⟨-, rfl⟩ | ⟨-, rfl⟩ <;> simp [State.sameDisplay]
  | muxtick => exact absurd rfl hm
  | samptick l => exact execSamptick_sameDisplay h
  | txack => exact execTxack_sameDisplay h
  | rdent => rcases execRdent_next h with ⟨-, rfl⟩ | ⟨-, rfl⟩ <;> simp [State.sameDisplay]
  | reset => exact absurd rfl hr

/-! ### The select lines -/

/-- After a multiplex tick the select line of POS is 1 and the other is 0 (10_state.md R26). -/
theorem State.muxTick_select (s : State) :
    s.muxTick.selL = s.muxTick.pos.code ∧ s.muxTick.selR = !s.muxTick.pos.code := by
  simp [State.muxTick_eq]

theorem Pos.code_eq_true_iff (p : Pos) : p.code = true ↔ p = .left := by cases p <;> decide

theorem Pos.code_eq_false_iff (p : Pos) : p.code = false ↔ p = .right := by cases p <;> decide

/-- Settles O17: a tick asserts the line of the new POS, and the lines are display fields, which only MUXTICK and RESET
write. -/
theorem oneSelectLinePerTick : Obligations.OneSelectLinePerTick := by
  refine ⟨fun s t hr h => ?tick, fun i s t hm hr h => ?other, fun s t hr h => ?reset, rfl, rfl⟩
  case tick =>
    rcases execMuxtick_next h with ⟨hn, -⟩ | ⟨-, rfl⟩
    · exact absurd hr hn
    · obtain ⟨hL, hR⟩ := s.muxTick_select
      simp [hL, hR, Pos.code_eq_true_iff, Pos.code_eq_false_iff]
  case other =>
    obtain ⟨-, -, -, -, hL, hR, -⟩ := exec_sameDisplay hm hr h
    exact ⟨hL, hR⟩
  case reset =>
    rw [execReset_next_live hr h]
    simp

/-! ### The sampler fields: WRDISP, MUXTICK and RDENT leave them -/

/-- The events of the host and of the multiplex timer leave the sampler's fields (10_state.md R47). -/
theorem exec_sameSampler {i : Instr} {s t : State} (hi : i.agent = .host ∨ i.agent = .muxtimer)
    (h : exec i s = .next t) : s.sameSampler t := by
  cases i with
  | wrdisp v => rcases execWrdisp_next h with ⟨-, rfl⟩ | ⟨-, rfl⟩ <;> simp [State.sameSampler]
  | muxtick => rcases execMuxtick_next h with ⟨-, rfl⟩ | ⟨-, rfl⟩ <;> simp [State.sameSampler, State.muxTick_eq]
  | samptick l => simp [Instr.agent] at hi
  | txack => simp [Instr.agent] at hi
  | rdent => rcases execRdent_next h with ⟨-, rfl⟩ | ⟨-, rfl⟩ <;> simp [State.sameSampler]
  | reset => simp [Instr.agent] at hi

/-! ### ARMED after each event -/

/-- The active level is the one IR_ACTIVE_LOW makes a logical 1 (42_pulse_sampler.md R151). -/
theorem sampleBit_eq_true_iff (c : Params) (l : Bit) : sampleBit c l = true ↔ l = !c.irActiveLow := by
  unfold sampleBit
  cases c.irActiveLow <;> simp

/-- The events of the host and of the multiplex timer leave ARMED. -/
theorem exec_armed_eq {i : Instr} {s t : State} (hi : i.agent = .host ∨ i.agent = .muxtimer)
    (h : exec i s = .next t) : t.armed = s.armed := by
  obtain ⟨-, harmed, -⟩ := exec_sameSampler hi h
  exact harmed

/-- A processed SAMPTICK ORs its sample into ARMED (42_pulse_sampler.md R153); one in REPORT, or in a refused state, does
nothing. -/
theorem execSamptick_armed {l : Bit} {s t : State} (h : execSamptick l s = .next t) :
    t.armed = (s.armed || (decide (s.refused = none ∧ s.sphase = .capture) && sampleBit s.cfg l)) := by
  rcases execSamptick_next h with ⟨hidle, rfl⟩ | ⟨hr, hp, b, hb, hmirror | hfull | hstore | hfill⟩
  · have : ¬ (t.refused = none ∧ t.sphase = .capture) := by
      rintro ⟨hr, hp⟩
      simp [hr, hp] at hidle
    simp [this]
  · obtain ⟨ha, rfl⟩ := hmirror
    obtain ⟨hs, hb0⟩ : s.armed = false ∧ b = false := by simpa using ha
    simp [hr, hp, ← hb, hs, hb0]
  · obtain ⟨-, -, rfl⟩ := hfull
    simp [hr, hp, ← hb]
  · obtain ⟨-, -, -, rfl⟩ := hstore
    simp [hr, hp, ← hb]
  · obtain ⟨-, -, B, -, rfl⟩ := hfill
    simp [hr, hp, ← hb]

theorem State.afterByte_armed (s : State) : s.afterByte.armed = (s.armed && !decide (s.txk = 4)) := by
  rcases s.afterByte_cases with ⟨hk, he⟩ | ⟨hk, he⟩ <;> simp [he, hk]

/-- A TXACK clears ARMED exactly when it takes the fifth byte (43_duration_decoder.md R178, R179). -/
theorem execTxack_armed {s t : State} (h : execTxack s = .next t) :
    t.armed = (s.armed && !decide (s.refused = none ∧ s.sphase = .report ∧ s.txk = 4)) := by
  rcases execTxack_next h with ⟨hr, rfl⟩ | ⟨-, hp, rfl⟩ | ⟨hr, hp, a, -, rfl⟩
  · simp [hr]
  · simp [hp]
  · by_cases hk : s.txk = 4 <;> simp [State.afterByte_armed, hr, hp, hk]

/-- An event that clears ARMED is a RESET or the fifth TXACK (10_state.md R31). -/
theorem exec_clears_armed {i : Instr} {s t : State} (h : exec i s = .next t) (hs : s.armed = true)
    (ht : t.armed = false) : i = .reset ∨ (i = .txack ∧ s.sphase = .report ∧ s.txk = 4) := by
  cases i with
  | wrdisp v => simp [exec_armed_eq (.inl rfl) h, hs] at ht
  | muxtick => simp [exec_armed_eq (.inr rfl) h, hs] at ht
  | samptick l => simp [execSamptick_armed h, hs] at ht
  | txack =>
    rw [execTxack_armed h, hs] at ht
    obtain ⟨-, hp, hk⟩ : s.refused = none ∧ s.sphase = .report ∧ s.txk = 4 := by simpa using ht
    exact .inr ⟨rfl, hp, hk⟩
  | rdent => simp [exec_armed_eq (.inl rfl) h, hs] at ht
  | reset => exact .inl rfl

/-- An event that sets ARMED is a SAMPTICK of the active level in CAPTURE (10_state.md R31). -/
theorem exec_sets_armed {i : Instr} {s t : State} (h : exec i s = .next t) (hs : s.armed = false)
    (ht : t.armed = true) : s.sphase = .capture ∧ i = .samptick (!s.cfg.irActiveLow) := by
  cases i with
  | wrdisp v => simp [exec_armed_eq (.inl rfl) h, hs] at ht
  | muxtick => simp [exec_armed_eq (.inr rfl) h, hs] at ht
  | samptick l =>
    rw [execSamptick_armed h, hs] at ht
    obtain ⟨⟨-, hp⟩, hl⟩ : (s.refused = none ∧ s.sphase = .capture) ∧ l = !s.cfg.irActiveLow := by
      simpa [sampleBit_eq_true_iff] using ht
    exact ⟨hp, by rw [hl]⟩
  | txack => simp [execTxack_armed h, hs] at ht
  | rdent => simp [exec_armed_eq (.inl rfl) h, hs] at ht
  | reset => rcases execReset_next h with ⟨-, rfl⟩ | ⟨-, rfl⟩ <;> simp [hs] at ht

/-- Settles O34: by what each event does to ARMED. -/
theorem armedChangesAreTheListedOnes : Obligations.ArmedChangesAreTheListedOnes := by
  refine ⟨fun s t hr hp h => ?active, fun s t hr hp hk h => ?fifth, fun s t hr h => ?reset,
    fun i s t => exec_clears_armed, fun i s t => exec_sets_armed, rfl⟩
  case active =>
    rw [execSamptick_armed h, (sampleBit_eq_true_iff s.cfg _).2 rfl]
    simp [hr, hp]
  case fifth =>
    rw [execTxack_armed h]
    simp [hr, hp, hk]
  case reset =>
    rw [execReset_next_live hr h]
    simp

end Sys2Proof.Machine
end

section
/-! PROOFS. The statements about event words (30_encoding.md): the decoder's reasons in order (R74), match and mask of each
format (R72) and the pseudo-instructions (R79). The layer below says what a word's fields are as numbers and which words
decode to an event. -/

namespace Sys2Proof

/-! ### The fields of a word as numbers -/

theorem opField_toNat (w : EventWord) : (opField w).toNat = w.toNat / 4096 := by
  have := w.isLt
  simp only [opField, BitVec.extractLsb'_toNat, Nat.shiftRight_eq_div_pow]
  omega

theorem rsvField_toNat (w : EventWord) : (rsvField w).toNat = w.toNat / 256 % 16 := by
  simp only [rsvField, BitVec.extractLsb'_toNat, Nat.shiftRight_eq_div_pow]

theorem dataField_eq_setWidth (w : EventWord) : dataField w = w.setWidth 8 :=
  (BitVec.setWidth_eq_extractLsb' (by decide)).symm

theorem dataField_toNat (w : EventWord) : (dataField w).toNat = w.toNat % 256 := by
  rw [dataField_eq_setWidth, BitVec.toNat_setWidth]

/-- A word is its three fields (30_encoding.md R70). -/
theorem eq_iff_fields_eq (w v : EventWord) :
    w = v ↔ opField w = opField v ∧ rsvField w = rsvField v ∧ dataField w = dataField v := by
  refine ⟨by rintro rfl; exact ⟨rfl, rfl, rfl⟩, ?_⟩
  simp only [← BitVec.toNat_inj, opField_toNat, rsvField_toNat, dataField_toNat]
  omega

/-! ### The operation codes and the operand byte -/

theorem mem_reservedOps_iff : ∀ op : BitVec 4,
    op ∈ reservedOps ↔ op.toNat = 0 ∨ (6 ≤ op.toNat ∧ op.toNat ≤ 14) := by decide

/-- The OP values that are not reserved are the six of R71. -/
theorem op_cases_of_not_mem_reservedOps : ∀ op : BitVec 4, op ∉ reservedOps →
    op = 0x1 ∨ op = 0x2 ∨ op = 0x3 ∨ op = 0x4 ∨ op = 0x5 ∨ op = 0xF := by decide

theorem Instr.op_not_mem_reservedOps (i : Instr) : i.op ∉ reservedOps := by
  cases i <;> simp [Instr.op, reservedOps]

theorem samptickData_toNat (l : Bit) : (Instr.samptick l).data.toNat = l.toNat := by
  cases l <;> rfl

theorem extractLsb'_one_seven_eq_zero_iff (data : Byte) : data.extractLsb' 1 7 = 0 ↔ data.toNat < 2 := by
  have := data.isLt
  rw [← BitVec.toNat_inj, BitVec.extractLsb'_toNat, Nat.shiftRight_eq_div_pow]
  change data.toNat / 2 ^ 1 % 2 ^ 7 = 0 ↔ _
  omega

theorem and_0xFE_eq_zero_iff (data : Byte) : data &&& 0xFE = 0 ↔ data.extractLsb' 1 7 = 0 := by
  have hmask : (0xFE : Byte) = BitVec.allOnes 8 <<< 1 := rfl
  have := data.isLt
  rw [extractLsb'_one_seven_eq_zero_iff, hmask, ← BitVec.shiftLeft_ushiftRight, ← BitVec.toNat_inj,
    BitVec.toNat_shiftLeft, BitVec.toNat_ushiftRight, Nat.shiftLeft_eq, Nat.shiftRight_eq_div_pow]
  change data.toNat / 2 ^ 1 * 2 ^ 1 % 2 ^ 8 = 0 ↔ _
  omega

/-- FMT_B1: the upper seven DATA bits are 0 and bit 0 is the level (R72). -/
theorem eq_samptickData_iff (data : Byte) (l : Bit) :
    data = (Instr.samptick l).data ↔ data.extractLsb' 1 7 = 0 ∧ data.getLsbD 0 = l := by
  rw [extractLsb'_one_seven_eq_zero_iff, ← BitVec.toNat_inj, samptickData_toNat, BitVec.getLsbD, Nat.testBit_zero]
  cases l <;> simp <;> omega

/-! ### Which words decode to an event -/

/-- The operand decoder answers an event exactly at its OP and its DATA (R71, R72). -/
theorem decodeOperand_eq_event_iff (op : BitVec 4) (data : Byte) (i : Instr) :
    decodeOperand op data = .event i ↔ op = i.op ∧ data = i.data := by
  constructor
  · intro h
    unfold decodeOperand needZeroData at h
    split_ifs at h with h1 h3 hl h2 hz h4 hz h5 hz hF hz <;> cases h
    · exact ⟨h1, rfl⟩
    · exact ⟨h3, (eq_samptickData_iff data _).2 ⟨hl, rfl⟩⟩
    · exact ⟨h2, hz⟩
    · exact ⟨h4, hz⟩
    · exact ⟨h5, hz⟩
    · exact ⟨hF, hz⟩
  · rintro ⟨rfl, h⟩
    cases i with
    | samptick l =>
      obtain ⟨hz, rfl⟩ := (eq_samptickData_iff data l).1 h
      simp [decodeOperand, Instr.op, hz]
    | wrdisp v => rw [h]; rfl
    | muxtick => rw [h]; rfl
    | txack => rw [h]; rfl
    | rdent => rw [h]; rfl
    | reset => rw [h]; rfl

/-- A word decodes to an event exactly when it carries its OP, RSV = 0 and its DATA (R70 to R72). -/
theorem decodeEvent_eq_event_iff (w : EventWord) (i : Instr) :
    decodeEvent w = .event i ↔ opField w = i.op ∧ rsvField w = 0 ∧ dataField w = i.data := by
  unfold decodeEvent
  split_ifs with hop hrsv
  · have hne : opField w ≠ i.op := fun h => i.op_not_mem_reservedOps (h ▸ hop)
    simp [hne]
  · exact ⟨nofun, fun ⟨_, h, _⟩ => absurd h hrsv⟩
  · rw [decodeOperand_eq_event_iff, iff_true_intro (not_not.1 hrsv), true_and]

/-- A word decodes to an event exactly when it is that event's encoding (R71, R72, R74). -/
theorem decodeEvent_eq_event_iff_eq_encode (w : EventWord) (i : Instr) : decodeEvent w = .event i ↔ w = encode i := by
  obtain ⟨hop, hrsv, hdata⟩ : Laws.EncodedFields.Statement i := Laws.EncodedFields.fields_of_append i.op i.data
  rw [decodeEvent_eq_event_iff, eq_iff_fields_eq, hop, hrsv, hdata]

/-! ### The order of the reasons -/

/-- The `case op of` of R74, in arithmetic on the numbers of OP and DATA. -/
theorem decodeOperand_eq_of_not_mem_reservedOps {op : BitVec 4} (h : op ∉ reservedOps) (data : Byte) :
    decodeOperand op data =
      if op.toNat = 1 then .event (.wrdisp (BitVec.ofNat 8 data.toNat))
      else if op.toNat = 3 then
        if data.toNat < 2 then .event (.samptick (decide (data.toNat % 2 = 1))) else .invalid .dataNonzero
      else if data.toNat ≠ 0 then .invalid .dataNonzero
      else if op.toNat = 2 then .event .muxtick
      else if op.toNat = 4 then .event .txack
      else if op.toNat = 5 then .event .rdent
      else .event .reset := by
  have hzero : data = 0 ↔ data.toNat = 0 := BitVec.toNat_inj.symm
  have hhigh := extractLsb'_one_seven_eq_zero_iff data
  have hlevel : data.getLsbD 0 = decide (data.toNat % 2 = 1) := Nat.testBit_zero _
  rcases op_cases_of_not_mem_reservedOps op h with rfl | rfl | rfl | rfl | rfl | rfl <;>
    simp only [decodeOperand, needZeroData, hzero, hhigh, hlevel, ite_not, BitVec.ofNat_toNat, BitVec.setWidth_eq] <;> rfl

/-- Settles O1: a reserved OP and a nonzero RSV are the first two branches of the decoder, and the rest is its operand
decoder on the numbers of OP and DATA. -/
theorem decoderChecksReasonsInOrder : Obligations.DecoderChecksReasonsInOrder := by
  intro w
  have hreserved := mem_reservedOps_iff (opField w)
  have hrsv : rsvField w ≠ 0 ↔ w.toNat / 256 % 16 ≠ 0 := by
    rw [← rsvField_toNat]
    exact not_congr BitVec.toNat_inj.symm
  have hlevel : w.toNat % 256 % 2 = w.toNat % 2 := Nat.mod_mod_of_dvd _ (by decide)
  rw [opField_toNat] at hreserved
  rw [decodeEvent]
  by_cases hop : opField w ∈ reservedOps
  · rw [if_pos hop, if_pos (hreserved.1 hop)]
  · rw [if_neg hop, if_neg (mt hreserved.2 hop), decodeOperand_eq_of_not_mem_reservedOps hop]
    simp only [hrsv, opField_toNat, dataField_toNat, hlevel]

/-! ### Match and mask -/

theorem opField_and (w v : EventWord) : opField (w &&& v) = opField w &&& opField v := BitVec.extractLsb'_and

theorem rsvField_and (w v : EventWord) : rsvField (w &&& v) = rsvField w &&& rsvField v := BitVec.extractLsb'_and

theorem dataField_and (w v : EventWord) : dataField (w &&& v) = dataField w &&& dataField v := BitVec.extractLsb'_and

/-- Match and mask of FMT_W8 (R72): the mask keeps OP and RSV. -/
theorem and_0xFF00_eq_iff (w : EventWord) : w &&& 0xFF00 = 0x1000 ↔ opField w = 0x1 ∧ rsvField w = 0 := by
  rw [eq_iff_fields_eq, opField_and, rsvField_and, dataField_and]
  change opField w &&& BitVec.allOnes 4 = 0x1 ∧ rsvField w &&& BitVec.allOnes 4 = 0 ∧ dataField w &&& 0#8 = 0#8 ↔ _
  rw [BitVec.and_allOnes, BitVec.and_allOnes, BitVec.and_zero, eq_self, and_true]

/-- Match and mask of FMT_B1 (R72): the mask keeps all bits but the level. -/
theorem and_0xFFFE_eq_iff (w : EventWord) :
    w &&& 0xFFFE = 0x3000 ↔ opField w = 0x3 ∧ rsvField w = 0 ∧ (dataField w).extractLsb' 1 7 = 0 := by
  rw [eq_iff_fields_eq, opField_and, rsvField_and, dataField_and]
  change opField w &&& BitVec.allOnes 4 = 0x3 ∧ rsvField w &&& BitVec.allOnes 4 = 0 ∧ dataField w &&& 0xFE = 0 ↔ _
  rw [BitVec.and_allOnes, BitVec.and_allOnes, and_0xFE_eq_zero_iff]

/-- FMT_Z (R72): the mask keeps every bit, so the match is the word itself. -/
theorem decodeEvent_eq_event_iff_and_0xFFFF (w : EventWord) (i : Instr) :
    decodeEvent w = .event i ↔ w &&& 0xFFFF = encode i := by
  rw [decodeEvent_eq_event_iff_eq_encode, show (0xFFFF : EventWord) = BitVec.allOnes 16 from rfl, BitVec.and_allOnes]

/-- Settles O2: a word decodes to an event exactly by its fields, which are what match and mask of the format compare. -/
theorem formatsGiveEventsAndOperands : Obligations.FormatsGiveEventsAndOperands := by
  intro w
  refine ⟨fun v => ?w8, decodeEvent_eq_event_iff_and_0xFFFF w .muxtick, fun l => ?b1,
    decodeEvent_eq_event_iff_and_0xFFFF w .txack, decodeEvent_eq_event_iff_and_0xFFFF w .rdent,
    decodeEvent_eq_event_iff_and_0xFFFF w .reset⟩
  case w8 =>
    rw [decodeEvent_eq_event_iff, and_0xFF00_eq_iff, dataField_eq_setWidth, and_assoc, eq_comm (a := v)]
    rfl
  case b1 =>
    have hbit : (dataField w).getLsbD 0 = w.getLsbD 0 := by simp [dataField_eq_setWidth]
    rw [decodeEvent_eq_event_iff, and_0xFFFE_eq_iff, eq_samptickData_iff, hbit, and_assoc, and_assoc, eq_comm (a := l)]
    rfl

/-! ### Pseudo-instructions -/

/-- Settles O7: each expansion is the line's own equation in `AsmLine.words`; the two words of the closing sentence of R79
are computed. -/
theorem pseudoInstructionsExpand : Obligations.PseudoInstructionsExpand := by
  intro low
  refine ⟨rfl, rfl, fun s _ => rfl, fun k line _ => rfl, rfl, by decide, by decide⟩

end Sys2Proof
end

section
/-! PROOFS. The statements about the segment encoder (40_segment_encoder.md): its patterns (R100, R102) and the split of a
display value into digits (R104). The layer below gives one equation per branch of `segEncode` and `digitOf`. -/

namespace Sys2Proof.Machine

/-! ### The branches of the encoder -/

theorem segEncode_num_of_lt (c : Params) {d : Nat} (h : d < 10) : segEncode c (.num d) = c.segTable[d] := dif_pos h

theorem segEncode_num_of_ge (c : Params) {d : Nat} (h : 10 ≤ d) : segEncode c (.num d) = 0x00 :=
  dif_neg (Nat.not_lt.2 h)

@[simp] theorem segEncode_blank (c : Params) : segEncode c .blank = 0x00 := rfl

/-- Settles O21: the statement's three clauses are the encoder's three branches. -/
theorem encoderIsTotal : Obligations.EncoderIsTotal := fun c =>
  ⟨fun _ h => segEncode_num_of_lt c h, fun _ h => segEncode_num_of_ge c h, segEncode_blank c⟩

/-! ### The branches of the digit split -/

theorem digitOf_left_of_le {v : Byte} (h : v.toNat ≤ 99) : digitOf v .left = .num (v.toNat / 10) :=
  if_neg (Nat.not_lt.2 h)

theorem digitOf_right_of_le {v : Byte} (h : v.toNat ≤ 99) : digitOf v .right = .num (v.toNat % 10) :=
  if_neg (Nat.not_lt.2 h)

theorem digitOf_of_ge {v : Byte} (h : 100 ≤ v.toNat) (pos : Pos) : digitOf v pos = .blank := if_pos h

/-- Settles O22: the digits are quotient and remainder by 10, and the quotient is a digit because v is at most 99. -/
theorem displayValueSplitsIntoDigits : Obligations.DisplayValueSplitsIntoDigits := by
  refine fun v => ⟨fun h => ?digits, fun h => ⟨digitOf_of_ge h .left, digitOf_of_ge h .right⟩⟩
  case digits =>
    have htens : v.toNat / 10 < 10 := Nat.div_lt_of_lt_mul (Nat.lt_succ_of_le h)
    have hunits : v.toNat % 10 < 10 := Nat.mod_lt _ (by decide)
    exact ⟨_, _, digitOf_left_of_le h, digitOf_right_of_le h, htens, hunits, (Nat.div_add_mod _ 10).symm⟩

end Sys2Proof.Machine
end

section
/-! PROOFS. The statements about the display multiplexer (41_display_multiplexer.md): WRDISP (R120), MUXTICK (R121, R125,
R128, R130, R131) and RDENT (R126). The layer below says what each display event answers in a live state, and what a
multiplex tick leaves in each field. -/

namespace Sys2Proof.Machine

/-! ### What a display event answers in a live state -/

theorem exec_wrdisp_live {s : State} (hr : s.refused = none) (v : Byte) :
    exec (.wrdisp v) s = .next { s with dispval := v } := by
  rw [exec, execWrdisp, State.whenLive_live hr]

theorem exec_muxtick_live {s : State} (hr : s.refused = none) : exec .muxtick s = .next s.muxTick := by
  rw [exec, execMuxtick, State.whenLive_live hr]

theorem exec_muxtick_refused {s : State} {r : RefuseReason} (hr : s.refused = some r) : exec .muxtick s = .next s := by
  rw [exec, execMuxtick, State.whenLive_refused hr]

theorem exec_rdent_live {s : State} (hr : s.refused = none) : exec .rdent s = .next (s.emit (.rd s.entropyOut)) := by
  rw [exec, execRdent, State.whenLive_live hr]

/-- MUXTICK answers a next state, also in a refused state. -/
theorem exists_exec_muxtick (s : State) : ∃ t, exec .muxtick s = .next t := by
  cases hr : s.refused with
  | none => exact ⟨_, exec_muxtick_live hr⟩
  | some r => exact ⟨s, exec_muxtick_refused hr⟩

/-- MUXTICK of a live state. -/
theorem exec_muxtick_next_live {s t : State} (hr : s.refused = none) (h : exec .muxtick s = .next t) : t = s.muxTick := by
  rw [exec_muxtick_live hr] at h
  cases h
  rfl

/-! ### The fields after a multiplex tick -/

@[simp] theorem State.muxTick_dispval (s : State) : s.muxTick.dispval = s.dispval := by rw [State.muxTick_eq]

@[simp] theorem State.muxTick_pos (s : State) : s.muxTick.pos = s.pos.other := by rw [State.muxTick_eq]

@[simp] theorem State.muxTick_entropy (s : State) : s.muxTick.entropy = (s.entropy + 1) % 2 ^ s.cfg.entropyWidth := by
  rw [State.muxTick_eq]

@[simp] theorem State.muxTick_refused (s : State) : s.muxTick.refused = s.refused := by rw [State.muxTick_eq]

@[simp] theorem State.muxTick_cfg (s : State) : s.muxTick.cfg = s.cfg := by rw [State.muxTick_eq]

/-- A tick stores the pattern of the position it services and keeps the other one (R121). -/
theorem State.muxTick_pattern (s : State) (q : Pos) :
    s.muxTick.pattern q = if s.pos.other = q then segPattern s.cfg s.dispval q else s.pattern q := by
  rw [State.muxTick_eq]
  cases q <;> rfl

theorem Pos.other_ne (q : Pos) : q.other ≠ q := by cases q <;> decide

@[simp] theorem Pos.other_other (q : Pos) : q.other.other = q := by cases q <;> rfl

theorem Pos.eq_or_other_eq (p q : Pos) : p = q ∨ p.other = q := by cases p <;> cases q <;> decide

/-- The position just serviced shows DISPVAL. -/
theorem State.muxTick_pattern_serviced (s : State) :
    s.muxTick.pattern s.pos.other = segPattern s.cfg s.dispval s.pos.other := by
  rw [State.muxTick_pattern, if_pos rfl]

theorem State.muxTick_pattern_kept (s : State) : s.muxTick.pattern s.pos = s.pattern s.pos := by
  rw [State.muxTick_pattern, if_neg s.pos.other_ne]

/-- After two ticks every position shows DISPVAL: the second tick services POS and keeps what the first one stored. -/
theorem State.muxTick_muxTick_pattern (s : State) (q : Pos) :
    s.muxTick.muxTick.pattern q = segPattern s.cfg s.dispval q := by
  rcases s.pos.eq_or_other_eq q with rfl | rfl
  · simpa using s.muxTick.muxTick_pattern_serviced
  · calc s.muxTick.muxTick.pattern s.pos.other
      _ = s.muxTick.pattern s.pos.other := by simpa using s.muxTick.muxTick_pattern_kept
      _ = segPattern s.cfg s.dispval s.pos.other := s.muxTick_pattern_serviced

/-! ### The whole effect of a tick, in every live state -/

/-- Settles O14: `State.muxTick_eq` at each of the two positions. -/
theorem muxtickServicesTheOtherDigit : Obligations.MuxtickServicesTheOtherDigit := by
  refine ⟨rfl, fun s hr => ?_⟩
  rw [exec_muxtick_live hr, State.muxTick_eq]
  exact ⟨fun hright => by rw [hright]; rfl, fun hleft => by rw [hleft]; rfl⟩

/-- Settles O16: a tick answers a next state and leaves REFUSED. -/
theorem muxtickNeverBlocks : Obligations.MuxtickNeverBlocks :=
  fun s hr => ⟨s.muxTick, exec_muxtick_live hr, by rw [State.muxTick_refused, hr]⟩

/-! ### ENTROPY and the pattern registers are display fields -/

/-- Settles O18: ENTROPY is a display field, which only MUXTICK and RESET write. -/
theorem entropyCountsTicksOnly : Obligations.EntropyCountsTicksOnly := by
  refine ⟨fun s t hr h => ?tick, fun i s t hm hr h => ?other, fun s t hr h => ?reset⟩
  case tick => rw [exec_muxtick_next_live hr h, State.muxTick_entropy]
  case other =>
    obtain ⟨-, -, -, hentropy, -⟩ := exec_sameDisplay hm hr h
    exact hentropy
  case reset =>
    rw [execReset_next_live hr h]
    simp

theorem State.sameDisplay.pattern_eq {s t : State} (h : s.sameDisplay t) (q : Pos) : t.pattern q = s.pattern q := by
  obtain ⟨-, hL, hR, -⟩ := h
  cases q with
  | left => exact hL
  | right => exact hR

@[simp] theorem State.resetRegisters_pattern (s : State) (q : Pos) : s.resetRegisters.pattern q = 0x00 := by
  cases q <;> rfl

@[simp] theorem State.emit_pattern (s : State) (x : Item) (q : Pos) : (s.emit x).pattern q = s.pattern q := by
  cases q <;> rfl

/-- Settles O24: by what one tick and two ticks leave in each pattern register, which are display fields otherwise. -/
theorem patternRegistersShowDispval : Obligations.PatternRegistersShowDispval := by
  refine ⟨fun s t hr h => ?tick, fun i s t q hm hr h => (exec_sameDisplay hm hr h).pattern_eq q,
    fun s t q hr h => ?reset, fun s hr => ?twoTicks⟩
  case tick =>
    rw [exec_muxtick_next_live hr h, State.muxTick_pos]
    exact ⟨s.muxTick_pattern_serviced, s.muxTick_pattern_kept, s.pos.other_ne⟩
  case reset =>
    rw [execReset_next_live hr h, State.emit_pattern, State.resetRegisters_pattern]
  case twoTicks =>
    have hr' : s.muxTick.refused = none := by rw [State.muxTick_refused, hr]
    exact ⟨_, _, exec_muxtick_live hr, exec_muxtick_live hr', s.muxTick_muxTick_pattern .left,
      s.muxTick_muxTick_pattern .right⟩

/-! ### The tick and the sampler -/

/-- The sampler's fields (10_state.md R47) replaced by any content. -/
def State.withSampler (s : State) (ph : Phase) (ar : Bit) (ix : Nat) (bf : Memory) (ac : Option AccWord)
    (tk : Fin reportBytes) (im : Bit) : State :=
  { s with sphase := ph, armed := ar, idx := ix, buf := bf, acc := ac, txk := tk, irmon := im }

/-- A tick commutes with every replacement of the sampler's fields (R130). -/
theorem State.muxTick_withSampler (s : State) (ph : Phase) (ar : Bit) (ix : Nat) (bf : Memory) (ac : Option AccWord)
    (tk : Fin reportBytes) (im : Bit) :
    (s.withSampler ph ar ix bf ac tk im).muxTick = s.muxTick.withSampler ph ar ix bf ac tk im := by
  rw [State.muxTick_eq, State.muxTick_eq]
  rfl

/-- MUXTICK does the same whatever the sampler's fields hold, in a live state and in a refused one (R130). -/
theorem exec_muxtick_withSampler {s t : State} (h : exec .muxtick s = .next t) (ph : Phase) (ar : Bit) (ix : Nat)
    (bf : Memory) (ac : Option AccWord) (tk : Fin reportBytes) (im : Bit) :
    exec .muxtick (s.withSampler ph ar ix bf ac tk im) = .next (t.withSampler ph ar ix bf ac tk im) := by
  have hkeep : (s.withSampler ph ar ix bf ac tk im).refused = s.refused := rfl
  cases hr : s.refused with
  | none => rw [exec_muxtick_live (hkeep.trans hr), State.muxTick_withSampler, exec_muxtick_next_live hr h]
  | some r =>
    rw [exec_muxtick_refused hr] at h
    cases h
    exact exec_muxtick_refused (hkeep.trans hr)

/-- Settles O26: the tick leaves the sampler's fields, and replacing them before or after it is the same. -/
theorem muxtickIgnoresTheSampler : Obligations.MuxtickIgnoresTheSampler := by
  intro s ph ar ix bf ac tk im
  obtain ⟨t, ht⟩ := exists_exec_muxtick s
  exact ⟨t, ht, exec_sameSampler (.inr rfl) ht, exec_muxtick_withSampler ht ph ar ix bf ac tk im⟩

/-! ### The host's two accesses -/

/-- FMT_W8 (30_encoding.md R72): appending DATA to OP and RSV is the OR of the two, each in its place. -/
theorem encode_wrdisp (v : Byte) : encode (.wrdisp v) = 0x1000#16 ||| v.setWidth 16 := by
  have hop : (0x1#4 ++ (0 : BitVec 4)).shiftLeftZeroExtend 8 = 0x1000#16 := by decide
  rw [encode, BitVec.append_def, BitVec.setWidth'_eq]
  exact congrArg (· ||| v.setWidth 16) hop

/-- Settles O13: the word by its format, the effect by the guard of a live state. -/
theorem wrdispSetsDispvalOnly : Obligations.WrdispSetsDispvalOnly :=
  fun v _ => ⟨encode_wrdisp v, fun hr => exec_wrdisp_live hr v⟩

/-- Settles O19: a live RDENT only emits, and ENTROPY_OUT is ENTROPY. -/
theorem rdentOnlyReportsEntropy : Obligations.RdentOnlyReportsEntropy :=
  ⟨rfl, fun _ hr => exec_rdent_live hr⟩

end Sys2Proof.Machine
end

section
/-! PROOFS. The statements about the pulse sampler (42_pulse_sampler.md): a tick in REPORT (R156) and the tick that fills
the buffer (R155). The layer below says what a SAMPTICK answers in each phase, and what a tick that stores its sample does
before the check for a full buffer. -/

namespace Sys2Proof.Machine

/-! ### What a SAMPTICK answers in each phase -/

theorem exec_samptick_capture {s : State} (hr : s.refused = none) (hp : s.sphase = .capture) (l : Bit) :
    exec (.samptick l) s = s.sampleTick (sampleBit s.cfg l) := by
  rw [exec, execSamptick, State.whenLive_live hr, hp]

/-- A tick in REPORT is dropped, in a live state and in a refused one (R156). -/
theorem exec_samptick_report {s : State} (hp : s.sphase = .report) (l : Bit) : exec (.samptick l) s = .next s := by
  rw [exec, execSamptick]
  cases hr : s.refused with
  | none => rw [State.whenLive_live hr, hp]
  | some r => rw [State.whenLive_refused hr]

/-- Settles O28: the drop of a tick in REPORT. -/
theorem sampleTickInReportIsDropped : Obligations.SampleTickInReportIsDropped :=
  fun l _ hp => exec_samptick_report hp l

/-! ### A tick that stores its sample -/

/-- After the sample is ORed into it, ARMED is 1: it was, or this sample arms (R153). -/
theorem State.armOn_eq {s : State} {b : Bit} (ha : s.armed = true ∨ b = true) :
    s.armOn b = { s with armed := true } := by
  cases hs : s.armed with
  | false => exact if_pos ⟨hs, ha.resolve_left (by simp [hs])⟩
  | true => rw [State.armOn, if_neg (by simp [hs]), ← hs]

/-- The sample of a tick mirrored, armed on and appended (R152 to R154), before the check for a full buffer. -/
def State.storedTick (s : State) (b : Bit) : State :=
  { s with irmon := b, armed := true, buf := s.buf.write s.idx b, idx := s.idx + 1, trace := s.trace ++ [.pin .irmon b] }

/-- With a free cell, a tick that is armed or arms stores its sample, and then checks for a full buffer. -/
theorem State.sampleTick_eq_storedTick {s : State} {b : Bit} (ha : s.armed = true ∨ b = true)
    (hi : s.idx < s.cfg.nSamples) : s.sampleTick b = (s.storedTick b).decodeIfFull := by
  have harm : (s.pinWrite .irmon b).armOn b = { s.pinWrite .irmon b with armed := true } := State.armOn_eq ha
  rw [State.sampleTick, harm]
  exact if_pos ⟨rfl, hi⟩

/-- A full buffer whose cells hold `B` is decoded, and the report begins (R155). -/
theorem State.decodeIfFull_full {s : State} {B : List Bit} (hi : s.idx = s.cfg.nSamples)
    (hB : s.buf.readRange 0 s.cfg.nSamples = some B) :
    s.decodeIfFull = .next (s.beginReport (decodeSamples s.cfg.tol B)) := by
  rw [State.decodeIfFull, if_pos hi, hB]

/-- Settles O31: the tick stores its sample, which leaves the buffer full with `B ++ [b]` in it. -/
theorem fillingSampleStartsTheReport : Obligations.FillingSampleStartsTheReport := by
  intro l b s B hr hp hb ha hi hB
  have hsample : sampleBit s.cfg l = b := hb.symm
  have hfull : (s.storedTick b).buf.readRange 0 s.cfg.nSamples = some (B ++ [b]) := hi ▸ Memory.readRange_write b hB
  calc exec (.samptick l) s
    _ = s.sampleTick b := by rw [exec_samptick_capture hr hp, hsample]
    _ = (s.storedTick b).decodeIfFull := State.sampleTick_eq_storedTick ha (by omega)
    _ = .next ((s.storedTick b).beginReport (decodeSamples s.cfg.tol (B ++ [b]))) := State.decodeIfFull_full hi hfull

end Sys2Proof.Machine
end

section
/-! PROOFS. The statements about the duration decoder (43_duration_decoder.md): the bit rule (R171) and the report event
TXACK (R178, R180). The layer below says what one sample, a mark and a space do to the decoder's variables, and what a
TXACK answers in each phase. -/

namespace Sys2Proof.Machine

/-! ### One sample -/

/-- A sample of 0 is counted into the space, and nothing else (R172). -/
theorem Scan.step_false (tol : Nat) (r : Scan) : r.step tol false = { r with space := r.space + 1, prev := false } := by
  have hedge : r.edge tol false = r := if_neg (by simp)
  rw [Scan.step, hedge]
  rfl

/-- A sample of 1 inside a mark is counted into it, and nothing else (R172). -/
theorem Scan.step_true_of_mark {r : Scan} (hp : r.prev = true) (tol : Nat) :
    r.step tol true = { r with mark := r.mark + 1 } := by
  have hedge : r.edge tol true = r := if_neg (by simp [hp])
  rw [Scan.step, hedge, Scan.count, if_pos rfl, ← hp]

/-- A sample of 1 after a 0 decodes the bit of the run pair before it and is the first of a new mark (R171 to R173). -/
theorem Scan.step_true_of_space {r : Scan} (hp : r.prev = false) (tol : Nat) :
    r.step tol true =
      { prev := true, mark := 1, space := 0, acc := shiftIn r.acc (pairBit tol r.mark r.space) } := by
  have hedge : r.edge tol true =
      { r with acc := shiftIn r.acc (pairBit tol r.mark r.space), mark := 0, space := 0 } := if_pos ⟨hp, rfl⟩
  rw [Scan.step, hedge]
  rfl

/-! ### Runs of samples -/

theorem scanSamples_cons (tol : Nat) (r : Scan) (b : Bit) (B : List Bit) :
    scanSamples tol r (b :: B) = scanSamples tol (r.step tol b) B := rfl

theorem scanSamples_append (tol : Nat) (r : Scan) (A B : List Bit) :
    scanSamples tol r (A ++ B) = scanSamples tol (scanSamples tol r A) B := List.foldl_append

/-- Inside a mark, further ones only lengthen it. -/
theorem scanSamples_replicate_true {r : Scan} (hp : r.prev = true) (tol k : Nat) :
    scanSamples tol r (List.replicate k true) = { r with mark := r.mark + k } := by
  induction k generalizing r with
  | zero => rfl
  | succ k ih =>
    have hrest := ih (r := { r with mark := r.mark + 1 }) hp
    rw [List.replicate_succ, scanSamples_cons, Scan.step_true_of_mark hp, hrest, Nat.add_assoc, Nat.add_comm 1]

/-- Zeros, at least one, only lengthen the space and end in it. -/
theorem scanSamples_replicate_false {k : Nat} (hk : 1 ≤ k) (tol : Nat) (r : Scan) :
    scanSamples tol r (List.replicate k false) = { r with space := r.space + k, prev := false } := by
  induction k, hk using Nat.le_induction generalizing r with
  | base => exact Scan.step_false tol r
  | succ k _ ih => rw [List.replicate_succ, scanSamples_cons, Scan.step_false, ih, Nat.add_assoc, Nat.add_comm 1]

/-- A mark that follows a 0 decodes one bit at its first sample, and counts its length from there (R172). -/
theorem scanSamples_mark {r : Scan} {m : Nat} (hp : r.prev = false) (hm : 1 ≤ m) (tol : Nat) :
    scanSamples tol r (List.replicate m true) =
      { prev := true, mark := m, space := 0, acc := shiftIn r.acc (pairBit tol r.mark r.space) } := by
  obtain ⟨k, rfl⟩ := Nat.exists_eq_add_of_le' hm
  rw [List.replicate_succ, scanSamples_cons, Scan.step_true_of_space hp, scanSamples_replicate_true rfl, Nat.add_comm 1]

/-- After a mark and a space the counters hold their lengths; the bit decoded is that of the pair before them (R172). -/
theorem scanSamples_markSpace {r : Scan} {m n : Nat} (hp : r.prev = false) (hm : 1 ≤ m) (hn : 1 ≤ n) (tol : Nat) :
    scanSamples tol r (markSpace m n) =
      { prev := false, mark := m, space := n, acc := shiftIn r.acc (pairBit tol r.mark r.space) } := by
  rw [markSpace, scanSamples_append, scanSamples_mark hp hm, scanSamples_replicate_false hn, Nat.zero_add]

/-! ### The bit rule -/

/-- With no mark before it, a rising edge decodes to 0: the first bit of a buffer (R177). -/
theorem pairBit_mark_zero (tol space : Nat) : pairBit tol 0 space = false := decide_eq_false (Nat.not_lt_zero _)

theorem shiftIn_zero (b : Bit) : shiftIn 0 b = if b = true then 1 else 0 := by cases b <;> decide

/-- Settles O39: the first edge decodes to 0 and the terminating 1 shifts in the bit of the pair `m`, `n`. -/
theorem pairDecodesByStrictExcess : Obligations.PairDecodesByStrictExcess := by
  intro tol m n hm hn
  have hpair : scanSamples tol Scan.init (markSpace m n) = { prev := false, mark := m, space := n, acc := 0 } := by
    rw [scanSamples_markSpace rfl hm hn, Scan.init, pairBit_mark_zero, shiftIn_zero, if_neg Bool.false_ne_true]
  calc decodeSamples tol (markSpace m n ++ [true])
    _ = ((scanSamples tol Scan.init (markSpace m n)).step tol true).acc := by
        rw [decodeSamples, scanSamples_append]; rfl
    _ = shiftIn 0 (pairBit tol m n) := by rw [hpair, Scan.step_true_of_space rfl]
    _ = if m > n + tol then 1 else 0 := by simp only [shiftIn_zero, pairBit, decide_eq_true_eq]

/-! ### What a TXACK answers in each phase -/

/-- A report byte is the quotient of ACC by the weight of its lowest bit, modulo 2^8 (20_memory.md R54). -/
theorem reportByte_eq_ofNat (a : AccWord) (k : Nat) : reportByte a k = BitVec.ofNat 8 (a.toNat / 2 ^ (8 * k)) := by
  rw [reportByte, BitVec.extractLsb', Nat.shiftRight_eq_div_pow]

/-- With no byte offered a TXACK is refused (R180). -/
theorem exec_txack_capture {s : State} (hr : s.refused = none) (hp : s.sphase = .capture) :
    exec .txack s = .next (s.refuse .txackIdle) := by
  rw [exec, execTxack, State.whenLive_live hr, hp]

/-- In a report the channel takes the byte that TXK names (R178). -/
theorem exec_txack_report {s : State} {a : AccWord} (hr : s.refused = none) (hp : s.sphase = .report)
    (ha : s.acc = some a) : exec .txack s = .next (s.emit (.tx (reportByte a s.txk.val))).afterByte := by
  have hoffered : s.txData = some (reportByte a s.txk.val) := by simp only [State.txData, hp, ha, Option.map_some]
  rw [exec, execTxack, State.whenLive_live hr, hp, hoffered]

/-- Settles O35: the byte taken, then the move of TXK or, at TXK = 4, the end of the report; the refusal in CAPTURE. -/
theorem txackTakesOneReportByte : Obligations.TxackTakesOneReportByte := by
  refine ⟨by decide, ?more, ?last, fun s hr hp => exec_txack_capture hr hp⟩
  case more =>
    intro s a hr hp ha hk
    rw [exec_txack_report hr hp ha, reportByte_eq_ofNat]
    exact congrArg _ (State.afterByte_more (s := s.emit _) hk)
  case last =>
    intro s a hr hp ha hk
    rw [exec_txack_report hr hp ha, reportByte_eq_ofNat, hk]
    exact congrArg _ (State.afterByte_last (s := s.emit _) hk)

end Sys2Proof.Machine
end

section
/-! PROOFS. The statement about refusals (60_exceptions.md R203). The first layer says on which words the event decoder
gives a reason, and which; the second what an event does in a refused state, and which event can change REFUSED. -/

namespace Sys2Proof

/-! ### The words with a reason -/

/-- A DATA bit is set that the format of OP requires to be 0 (30_encoding.md R72): FMT_B1 leaves bit 0 free, FMT_Z no bit,
FMT_W8 every bit. -/
def DataViolatesFormat (op : BitVec 4) (data : Byte) : Prop :=
  (op = 0x3 ∧ data.extractLsb' 1 7 ≠ 0) ∨ (op ∈ [0x2#4, 0x4#4, 0x5#4, 0xF#4] ∧ data ≠ 0)

theorem dataViolatesFormat_samptick (data : Byte) : DataViolatesFormat 0x3 data ↔ data.extractLsb' 1 7 ≠ 0 := by
  simp [DataViolatesFormat]

theorem dataViolatesFormat_zero {op : BitVec 4} (h : op ∈ [0x2#4, 0x4#4, 0x5#4, 0xF#4]) (data : Byte) :
    DataViolatesFormat op data ↔ data ≠ 0 := by
  have hne : op ≠ 3#4 := by rintro rfl; simp at h
  simp [DataViolatesFormat, hne, h]

/-- A check that gives the event where `P` holds and a reason elsewhere. -/
theorem ite_event_invalid_eq_invalid_iff {P : Prop} [Decidable P] (i : Instr) (a r : RefuseReason) :
    (if P then Decoded.event i else .invalid a) = .invalid r ↔ ¬ P ∧ r = a := by
  by_cases hP : P <;> simp [hP, eq_comm (a := a)]

/-- FMT_Z, at each OP that has it (R72). -/
theorem needZeroData_eq_invalid_iff {op : BitVec 4} (h : op ∈ [0x2#4, 0x4#4, 0x5#4, 0xF#4]) (data : Byte) (i : Instr)
    (r : RefuseReason) : needZeroData data i = .invalid r ↔ DataViolatesFormat op data ∧ r = .dataNonzero := by
  rw [dataViolatesFormat_zero h]
  exact ite_event_invalid_eq_invalid_iff i _ r

/-- With OP not reserved and RSV = 0 the one reason left is DATA_NONZERO (R74). -/
theorem decodeOperand_eq_invalid_iff {op : BitVec 4} (h : op ∉ reservedOps) (data : Byte) (r : RefuseReason) :
    decodeOperand op data = .invalid r ↔ DataViolatesFormat op data ∧ r = .dataNonzero := by
  rcases op_cases_of_not_mem_reservedOps op h with rfl | rfl | rfl | rfl | rfl | rfl
  · simp [decodeOperand, DataViolatesFormat]
  · exact needZeroData_eq_invalid_iff (by decide) data .muxtick r
  · rw [dataViolatesFormat_samptick]
    exact ite_event_invalid_eq_invalid_iff _ _ r
  · exact needZeroData_eq_invalid_iff (by decide) data .txack r
  · exact needZeroData_eq_invalid_iff (by decide) data .rdent r
  · exact needZeroData_eq_invalid_iff (by decide) data .reset r

/-- The reasons of the event decoder, each where no condition before it holds (R74). -/
theorem decodeEvent_eq_invalid_iff (w : EventWord) (r : RefuseReason) :
    decodeEvent w = .invalid r ↔
      (opField w ∈ reservedOps ∧ r = .reservedOp) ∨
      (opField w ∉ reservedOps ∧ rsvField w ≠ 0 ∧ r = .rsvNonzero) ∨
      (opField w ∉ reservedOps ∧ rsvField w = 0 ∧ DataViolatesFormat (opField w) (dataField w) ∧ r = .dataNonzero) := by
  by_cases hop : opField w ∈ reservedOps
  · simp [decodeEvent, hop, eq_comm (b := r)]
  · by_cases hrsv : rsvField w = 0#4
    · simp [decodeEvent, hop, hrsv, decodeOperand_eq_invalid_iff hop]
    · simp [decodeEvent, hop, hrsv, eq_comm (b := r)]

end Sys2Proof

namespace Sys2Proof.Machine

/-! ### Events and words in a refused state -/

/-- Every event, RESET included, leaves a refused state: each of them is guarded. -/
theorem exec_refused {s : State} {r : RefuseReason} (hr : s.refused = some r) (i : Instr) : exec i s = .next s := by
  cases i <;>
    simp only [exec, execWrdisp, execMuxtick, execSamptick, execTxack, execRdent, execReset, State.whenLive_refused hr]

/-- A word with a reason, in a live state, only sets REFUSED. -/
theorem applyWord_invalid_live {s : State} {w : EventWord} {r : RefuseReason} (hr : s.refused = none)
    (hw : decodeEvent w = .invalid r) : applyWord w s = .next (s.refuse r) := by
  rw [applyWord, State.whenLive_live hr, hw]

/-! ### Which event can change REFUSED -/

@[simp] theorem State.afterByte_refused (s : State) : s.afterByte.refused = s.refused := by
  rcases s.afterByte_cases with ⟨-, he⟩ | ⟨-, he⟩ <;> simp [he]

theorem execSamptick_refused_eq {l : Bit} {s t : State} (h : execSamptick l s = .next t) : t.refused = s.refused := by
  rcases execSamptick_next h with ⟨-, rfl⟩ | ⟨-, -, b, -, hmirror | hfull | hstore | hfill⟩
  · rfl
  · obtain ⟨-, rfl⟩ := hmirror
    simp
  · obtain ⟨-, -, rfl⟩ := hfull
    simp
  · obtain ⟨-, -, -, rfl⟩ := hstore
    simp
  · obtain ⟨-, -, B, -, rfl⟩ := hfill
    simp

/-- An event leaves REFUSED, except a TXACK with no byte offered, which only sets it (60_exceptions.md R203). -/
theorem exec_refused_eq_or_txack_idle {i : Instr} {s t : State} (h : exec i s = .next t) :
    t.refused = s.refused ∨ (i = .txack ∧ s.sphase = .capture ∧ t = s.refuse .txackIdle) := by
  cases i with
  | wrdisp v => rcases execWrdisp_next h with ⟨-, rfl⟩ | ⟨-, rfl⟩ <;> exact .inl rfl
  | muxtick =>
    rcases execMuxtick_next h with ⟨-, rfl⟩ | ⟨-, rfl⟩
    · exact .inl rfl
    · exact .inl s.muxTick_refused
  | samptick l => exact .inl (execSamptick_refused_eq h)
  | txack =>
    rcases execTxack_next h with ⟨-, rfl⟩ | ⟨-, hp, ht⟩ | ⟨-, -, a, -, rfl⟩
    · exact .inl rfl
    · exact .inr ⟨rfl, hp, ht⟩
    · exact .inl (State.afterByte_refused _)
  | rdent => rcases execRdent_next h with ⟨-, rfl⟩ | ⟨-, rfl⟩ <;> exact .inl rfl
  | reset => rcases execReset_next h with ⟨-, rfl⟩ | ⟨-, rfl⟩ <;> exact .inl rfl

/-- Settles O10: the decoder's reasons by their conditions, the guard of a refused state, and the one event that can set
REFUSED. -/
theorem refusalMarksAndFreezes : Obligations.RefusalMarksAndFreezes := by
  refine ⟨fun s w r hr hw => applyWord_invalid_live hr hw, fun w => ?reasons, fun s hr hp => exec_txack_capture hr hp,
    fun s i hr => ?frozenEvent, fun s w hr => ?frozenWord, fun s t i hr h ht => ?only⟩
  case reasons =>
    simp [decodeEvent_eq_invalid_iff, DataViolatesFormat]
  case frozenEvent =>
    obtain ⟨r, hr⟩ := Option.ne_none_iff_exists'.1 hr
    exact exec_refused hr i
  case frozenWord =>
    obtain ⟨r, hr⟩ := Option.ne_none_iff_exists'.1 hr
    exact applyWord_refused hr w
  case only =>
    rcases exec_refused_eq_or_txack_idle h with hkeep | ⟨hi, hp, rfl⟩
    · exact absurd (hkeep.trans hr) ht
    · exact ⟨hi, hp, rfl⟩

end Sys2Proof.Machine
end

section
/-! PROOFS. The statements of 70_reset_and_hazards.md: RESET (R220), the build parameters (R224) and the one writer of each
field (R230). The layer below says, in one equation for each of the two sampler events, which fields it can write. -/

namespace Sys2Proof.Machine

/-! ### RESET -/

theorem exec_reset_live {s : State} (hr : s.refused = none) : exec .reset s = .next (s.resetRegisters.emit .rst) := by
  rw [exec, execReset, State.whenLive_live hr]

/-- Settles O44: the effect by the guard of a live state, and that guard in a refused one. -/
theorem resetPutsEveryRegister : Obligations.ResetPutsEveryRegister := by
  refine ⟨by decide, fun s hr => exec_reset_live hr, fun s hr => ?refused⟩
  case refused =>
    obtain ⟨r, hr⟩ := Option.ne_none_iff_exists'.1 hr
    exact exec_refused hr .reset

/-! ### The fields a sampler event can write -/

/-- Arming ORs the sample into ARMED and writes nothing else (42_pulse_sampler.md R153). -/
theorem State.armOn_eq_or (s : State) (b : Bit) : s.armOn b = { s with armed := s.armed || b } := by
  apply State.ext_fields <;> simp

/-- A SAMPTICK writes the sampler's fields and the trace, and nothing else (R230). -/
theorem execSamptick_frame {l : Bit} {s t : State} (h : execSamptick l s = .next t) :
    t = { s.withSampler t.sphase t.armed t.idx t.buf t.acc t.txk t.irmon with trace := t.trace } := by
  rcases execSamptick_next h with ⟨-, rfl⟩ | ⟨-, -, b, -, hmirror | hfull | hstore | hfill⟩
  · rfl
  · obtain ⟨-, rfl⟩ := hmirror
    rfl
  · obtain ⟨-, -, ht⟩ := hfull
    rw [ht, State.armOn_eq_or]
    rfl
  · obtain ⟨-, -, -, ht⟩ := hstore
    rw [ht, State.armOn_eq_or]
    rfl
  · obtain ⟨-, -, B, -, ht⟩ := hfill
    rw [ht, State.armOn_eq_or]
    rfl

/-- A TXACK writes the sampler's fields except BUF and IRMON, the trace and REFUSED, and nothing else (R230). -/
theorem execTxack_frame {s t : State} (h : execTxack s = .next t) :
    t = { s.withSampler t.sphase t.armed t.idx s.buf t.acc t.txk s.irmon with
            trace := t.trace, refused := t.refused } := by
  rcases execTxack_next h with ⟨-, rfl⟩ | ⟨-, -, rfl⟩ | ⟨-, -, a, -, ht⟩
  · rfl
  · rfl
  · rcases State.afterByte_cases (s.emit (.tx (reportByte a s.txk.val))) with ⟨-, he⟩ | ⟨-, he⟩
    · rw [ht, he]; rfl
    · rw [ht, he]; rfl

/-! ### The build parameters -/

/-- Settles O11: no event's effect has the parameters among the fields it writes. -/
theorem eventsKeepParameters : Obligations.EventsKeepParameters := by
  intro i s t h
  cases i with
  | wrdisp v => rcases execWrdisp_next h with ⟨-, rfl⟩ | ⟨-, rfl⟩ <;> rfl
  | muxtick =>
    rcases execMuxtick_next h with ⟨-, rfl⟩ | ⟨-, rfl⟩
    · rfl
    · exact s.muxTick_cfg
  | samptick l => exact (congrArg State.cfg (execSamptick_frame h) :)
  | txack => exact (congrArg State.cfg (execTxack_frame h) :)
  | rdent => rcases execRdent_next h with ⟨-, rfl⟩ | ⟨-, rfl⟩ <;> rfl
  | reset => rcases execReset_next h with ⟨-, rfl⟩ | ⟨-, rfl⟩ <;> rfl

/-! ### One writer for each field -/

/-- Every event but WRDISP and RESET leaves DISPVAL (10_state.md R47). -/
theorem exec_dispval_eq {i : Instr} {s t : State} (hw : ∀ v, i ≠ .wrdisp v) (hr : i ≠ .reset) (h : exec i s = .next t) :
    t.dispval = s.dispval := by
  cases i with
  | wrdisp v => exact absurd rfl (hw v)
  | muxtick =>
    rcases execMuxtick_next h with ⟨-, rfl⟩ | ⟨-, rfl⟩
    · rfl
    · exact s.muxTick_dispval
  | samptick l => exact (congrArg State.dispval (execSamptick_frame h) :)
  | txack => exact (congrArg State.dispval (execTxack_frame h) :)
  | rdent => rcases execRdent_next h with ⟨-, rfl⟩ | ⟨-, rfl⟩ <;> rfl
  | reset => exact absurd rfl hr

/-- An event that is no SAMPTICK, TXACK or RESET is the host's or the multiplex timer's (30_encoding.md R71). -/
theorem Instr.agent_of_not_sampler {i : Instr} (hs : ∀ l, i ≠ .samptick l) (hx : i ≠ .txack) (hr : i ≠ .reset) :
    i.agent = .host ∨ i.agent = .muxtimer := by
  cases i with
  | wrdisp v => exact .inl rfl
  | muxtick => exact .inr rfl
  | samptick l => exact absurd rfl (hs l)
  | txack => exact absurd rfl hx
  | rdent => exact .inl rfl
  | reset => exact absurd rfl hr

theorem State.sameSampler_refl (s : State) : s.sameSampler s := by simp [State.sameSampler]

/-- Every event but SAMPTICK and RESET leaves BUF and IRMON: TXACK does not have them among its fields. -/
theorem exec_buf_irmon_eq {i : Instr} {s t : State} (hs : ∀ l, i ≠ .samptick l) (hr : i ≠ .reset)
    (h : exec i s = .next t) : t.buf = s.buf ∧ t.irmon = s.irmon := by
  by_cases hx : i = .txack
  · subst hx
    exact ⟨(congrArg State.buf (execTxack_frame h) :), (congrArg State.irmon (execTxack_frame h) :)⟩
  · obtain ⟨-, -, -, hbuf, -, -, hirmon⟩ := exec_sameSampler (Instr.agent_of_not_sampler hs hx hr) h
    exact ⟨hbuf, hirmon⟩

/-- A TXACK in CAPTURE, which is refused, leaves the sampler's fields (43_duration_decoder.md R180). -/
theorem execTxack_capture_sameSampler {s t : State} (hp : s.sphase = .capture) (h : execTxack s = .next t) :
    s.sameSampler t := by
  rcases execTxack_next h with ⟨-, rfl⟩ | ⟨-, -, rfl⟩ | ⟨-, hreport, -⟩
  · exact t.sameSampler_refl
  · simp [State.sameSampler]
  · simp [hp] at hreport

/-- In CAPTURE only SAMPTICK and RESET write the sampler's fields (R230). -/
theorem exec_capture_sameSampler {i : Instr} {s t : State} (hs : ∀ l, i ≠ .samptick l) (hr : i ≠ .reset)
    (hp : s.sphase = .capture) (h : exec i s = .next t) : s.sameSampler t := by
  by_cases hx : i = .txack
  · subst hx
    exact execTxack_capture_sameSampler hp h
  · exact exec_sameSampler (Instr.agent_of_not_sampler hs hx hr) h

/-- In REPORT only TXACK and RESET write the sampler's fields: a SAMPTICK is dropped (42_pulse_sampler.md R156). -/
theorem exec_report_sameSampler {i : Instr} {s t : State} (hx : i ≠ .txack) (hr : i ≠ .reset)
    (hp : s.sphase = .report) (h : exec i s = .next t) : s.sameSampler t := by
  by_cases hs : ∃ l, i = .samptick l
  · obtain ⟨l, rfl⟩ := hs
    rw [exec_samptick_report hp] at h
    cases h
    exact s.sameSampler_refl
  · exact exec_sameSampler (Instr.agent_of_not_sampler (not_exists.1 hs) hx hr) h

/-- Settles O46: each clause by the lemma on its group of fields, the sampler's by phase. -/
theorem eachFieldHasOneWriter : Obligations.EachFieldHasOneWriter := fun _ _ _ hr h =>
  ⟨fun hw => exec_dispval_eq hw hr h,
    fun hm => exec_sameDisplay hm hr h,
    fun hs => exec_buf_irmon_eq hs hr h,
    fun hs hx => exec_sameSampler (Instr.agent_of_not_sampler hs hx hr) h,
    fun hs hp => exec_capture_sameSampler hs hr hp h,
    fun hx hp => exec_report_sameSampler hx hr hp h⟩

end Sys2Proof.Machine
end

section
/-! PROOFS. The statements about event words (30_encoding.md) that need the encoder and the text layer: the round trip
of decoder and encoder (R71, R72, R74), the number of legal words (R76), the assembler's words (R78) and printing a
word and assembling it back (R80). The layer below says which words are legal, and how a printed operand is read
again. -/

namespace Sys2Proof

/-! ### The round trip of the decoder and the encoder -/

/-- Settles O3: a word decodes to an event exactly when it is its encoding. -/
theorem decodeAndEncodeAgree : Obligations.DecodeAndEncodeAgree :=
  ⟨fun i _ => (decodeEvent_eq_event_iff_eq_encode _ i).2 rfl, fun w i => (decodeEvent_eq_event_iff_eq_encode w i).1⟩

/-- Settles O5: each written word is the encoding of its event, and OP 0 is reserved. -/
theorem writtenWordsDecode : Obligations.WrittenWordsDecode := by
  simp only [Obligations.WrittenWordsDecode, decodeEvent_eq_event_iff_eq_encode]
  decide

/-! ### The legal words -/

theorem encode_injective : Function.Injective encode := fun i j h => by
  have hi := (decodeEvent_eq_event_iff_eq_encode (encode i) i).2 rfl
  have hj := (decodeEvent_eq_event_iff_eq_encode (encode i) j).2 h
  exact Decoded.event.inj (hi.symm.trans hj)

theorem legalWord_iff_exists_encode (w : EventWord) : legalWord w = true ↔ ∃ i, encode i = w := by
  simp only [eq_comm (b := w), ← decodeEvent_eq_event_iff_eq_encode, legalWord]
  cases decodeEvent w <;> simp

/-- The six events that carry no display value. -/
def plainEvents : Finset Instr := {.muxtick, .samptick false, .samptick true, .txack, .rdent, .reset}

/-- Every event (30_encoding.md R71). -/
def allEvents : Finset Instr := Finset.univ.image Instr.wrdisp ∪ plainEvents

theorem mem_allEvents (i : Instr) : i ∈ allEvents := by
  cases i with
  | wrdisp v => exact Finset.mem_union_left _ (Finset.mem_image_of_mem _ (Finset.mem_univ v))
  | samptick l => cases l <;> exact Finset.mem_union_right _ (by decide)
  | muxtick => exact Finset.mem_union_right _ (by decide)
  | txack => exact Finset.mem_union_right _ (by decide)
  | rdent => exact Finset.mem_union_right _ (by decide)
  | reset => exact Finset.mem_union_right _ (by decide)

theorem card_allEvents : allEvents.card = 262 := by
  have hdisjoint : Disjoint (Finset.univ.image Instr.wrdisp) plainEvents := by
    simp [Finset.disjoint_left, plainEvents]
  have hvalues : (Finset.univ.image Instr.wrdisp).card = 256 := by
    rw [Finset.card_image_of_injective _ fun _ _ => Instr.wrdisp.inj, Finset.card_univ, ← FinEnum.card_eq_fintypeCard,
      FinEnum.card_bitVec]
    rfl
  rw [allEvents, Finset.card_union_of_disjoint hdisjoint, hvalues]
  rfl

/-- Settles O4: the legal words are the encodings of the events, one for each. -/
theorem legalWordsAre262 : Obligations.LegalWordsAre262 := by
  have hlegal : (Finset.univ.filter fun w : EventWord => legalWord w = true) = allEvents.image encode := by
    ext w
    simp [legalWord_iff_exists_encode, mem_allEvents]
  rw [Obligations.LegalWordsAre262, hlegal, Finset.card_image_of_injective _ encode_injective, card_allEvents]

/-! ### The assembler's words -/

theorem wrdisp_words (low : Bit) {v : Nat} (hv : v ≤ 255) :
    (AsmLine.wrdisp v).words low = [encode (.wrdisp (BitVec.ofNat 8 v))] := by
  have hdata : (BitVec.ofNat 8 v).setWidth 16 = BitVec.ofNat 16 v := by
    apply BitVec.eq_of_toNat_eq
    simp only [BitVec.toNat_setWidth, BitVec.toNat_ofNat]
    omega
  rw [Machine.encode_wrdisp, hdata, AsmLine.words]

theorem samp_words (low : Bit) {l : Nat} (hl : l ≤ 1) :
    (AsmLine.samp l).words low = [encode (.samptick (decide (l = 1)))] := by
  obtain rfl | rfl : l = 0 ∨ l = 1 := by omega
  · rfl
  · rfl

/-- Settles O8: the two words with an operand by their formats, the others as written. -/
theorem assemblerAgreesWithEncoder : Obligations.AssemblerAgreesWithEncoder := fun low =>
  ⟨fun _ => wrdisp_words low, rfl, fun _ => samp_words low, rfl, rfl, rfl⟩

/-! ### Reading a printed number -/

/-- A character of a token: no blank and no start of a comment. -/
def IsTokenChar (c : Char) : Prop := isBlank c = false ∧ c ≠ ';'

/-- The character of a decimal digit, as `decText` prints it. -/
def decimalChar (d : Nat) : Char := Char.ofNat (48 + d)

theorem decimalChar_isTokenChar : ∀ d, d < 10 → IsTokenChar (decimalChar d) ∧ decimalChar d ≠ 'x' := by
  unfold IsTokenChar
  decide

theorem decDigit_decimalChar : ∀ d, d < 10 → decDigit (decimalChar d) = some d := by decide

theorem hexChar_isTokenChar : ∀ d, IsTokenChar (hexChar d) := by
  unfold IsTokenChar
  decide

theorem hexDigit_hexChar : ∀ d, hexDigit (hexChar d) = some d.toNat := by decide

theorem decText_eq (v : Byte) :
    decText v =
      if v.toNat < 10 then [decimalChar v.toNat]
      else if v.toNat < 100 then [decimalChar (v.toNat / 10), decimalChar (v.toNat % 10)]
      else [decimalChar (v.toNat / 100), decimalChar (v.toNat / 10 % 10), decimalChar (v.toNat % 10)] := rfl

/-- The printed decimal is at least one digit, each below 10. -/
theorem decText_digits (v : Byte) : decText v ≠ [] ∧ ∀ c ∈ decText v, ∃ d, d < 10 ∧ c = decimalChar d := by
  have hv := v.isLt
  rw [decText_eq]
  split_ifs with h1 h2
  · exact ⟨nofun, by simpa using ⟨_, h1, rfl⟩⟩
  · refine ⟨nofun, ?_⟩
    simp only [List.mem_cons, List.not_mem_nil, or_false, forall_eq_or_imp, forall_eq]
    exact ⟨⟨_, by omega, rfl⟩, ⟨_, by omega, rfl⟩⟩
  · refine ⟨nofun, ?_⟩
    simp only [List.mem_cons, List.not_mem_nil, or_false, forall_eq_or_imp, forall_eq]
    exact ⟨⟨_, by omega, rfl⟩, ⟨_, by omega, rfl⟩, ⟨_, by omega, rfl⟩⟩

theorem decText_isTokenChar {v : Byte} {c : Char} (hc : c ∈ decText v) : IsTokenChar c ∧ c ≠ 'x' := by
  obtain ⟨d, hd, rfl⟩ := (decText_digits v).2 c hc
  exact decimalChar_isTokenChar d hd

/-- A number without an x is read in decimal (30_encoding.md R78). -/
theorem readNumber_of_not_mem_x {cs : List Char} (hne : cs ≠ []) (hx : 'x' ∉ cs) :
    readNumber cs = readDigits decDigit 10 0 cs := by
  unfold readNumber
  split
  · exact absurd rfl hne
  · simp at hx
  · rfl

theorem readDigits_cons {digit : Char → Option Nat} {c : Char} {d : Nat} (hc : digit c = some d) (base n : Nat)
    (cs : List Char) : readDigits digit base n (c :: cs) = readDigits digit base (base * n + d) cs := by
  rw [readDigits, hc]

theorem readNumber_decText (v : Byte) : readNumber (decText v) = some v.toNat := by
  have hv := v.isLt
  rw [readNumber_of_not_mem_x (decText_digits v).1 fun hx => (decText_isTokenChar hx).2 rfl]
  rw [decText_eq]
  split_ifs with h1 h2
  · rw [readDigits_cons (decDigit_decimalChar _ h1), readDigits, Nat.mul_zero, Nat.zero_add]
  · rw [readDigits_cons (decDigit_decimalChar _ (by omega)), readDigits_cons (decDigit_decimalChar _ (by omega)),
      readDigits, Option.some_inj]
    omega
  · rw [readDigits_cons (decDigit_decimalChar _ (by omega)), readDigits_cons (decDigit_decimalChar _ (by omega)),
      readDigits_cons (decDigit_decimalChar _ (by omega)), readDigits, Option.some_inj]
    omega

/-- The four hexadecimal digits of a word, after `0x`. -/
def hexText (w : EventWord) : List Char :=
  ['0', 'x', hexChar (w.extractLsb' 12 4), hexChar (w.extractLsb' 8 4), hexChar (w.extractLsb' 4 4),
    hexChar (w.extractLsb' 0 4)]

theorem hexText_isTokenChar {w : EventWord} {c : Char} (hc : c ∈ hexText w) : IsTokenChar c := by
  simp only [hexText, List.mem_cons, List.not_mem_nil, or_false] at hc
  rcases hc with rfl | rfl | rfl | rfl | rfl | rfl
  · exact ⟨by decide, by decide⟩
  · exact ⟨by decide, by decide⟩
  all_goals exact hexChar_isTokenChar _

theorem readNumber_hexText (w : EventWord) : readNumber (hexText w) = some w.toNat := by
  have hw := w.isLt
  have hread : readNumber (hexText w) = readDigits hexDigit 16 0 (hexText w).tail.tail := rfl
  rw [hread, hexText, List.tail, List.tail, readDigits_cons (hexDigit_hexChar _), readDigits_cons (hexDigit_hexChar _),
    readDigits_cons (hexDigit_hexChar _), readDigits_cons (hexDigit_hexChar _), readDigits, Option.some_inj]
  simp only [BitVec.extractLsb'_toNat, Nat.shiftRight_eq_div_pow]
  omega

/-! ### Reading a printed line -/

/-- A token is read to its end. -/
theorem splitTokens_append {t : List Char} (ht : ∀ c ∈ t, IsTokenChar c) (cur rest : List Char) :
    splitTokens cur (t ++ rest) = splitTokens (t.reverse ++ cur) rest := by
  induction t generalizing cur with
  | nil => rfl
  | cons c t ih =>
    have hblank : isBlank c = false := (ht c List.mem_cons_self).1
    rw [List.cons_append, splitTokens, hblank, if_neg Bool.false_ne_true,
      ih fun x hx => ht x (List.mem_cons_of_mem c hx), List.reverse_cons, List.append_assoc, List.singleton_append]

/-- A last token, with or without a blank behind it. -/
theorem splitTokens_last {t tail : List Char} (hne : t ≠ []) (ht : ∀ c ∈ t, IsTokenChar c)
    (htail : tail = [] ∨ tail = [' ']) : splitTokens [] (t ++ tail) = [t] := by
  have hrev : t.reverse ≠ [] := by simpa using hne
  rw [splitTokens_append ht, List.append_nil]
  rcases htail with rfl | rfl <;> simp [splitTokens, isBlank, hrev]

theorem dropComment_append {t : List Char} (ht : ∀ c ∈ t, c ≠ ';') (rest : List Char) :
    dropComment (t ++ rest) = t ++ dropComment rest :=
  List.takeWhile_append_of_pos fun c hc => by simpa using ht c hc

theorem assembleText_printEvent (low : Bit) (i : Instr) : assembleText low (printEvent i) = some [encode i] := by
  cases i with
  | wrdisp v =>
    obtain ⟨hne, -⟩ := decText_digits v
    have hdrop : dropComment (decText v) = decText v := by
      simpa [dropComment] using dropComment_append (t := decText v) (fun c hc => (decText_isTokenChar hc).1.2) []
    have htokens : splitTokens [] (dropComment (printEvent (.wrdisp v))) =
        [['w', 'r', 'd', 'i', 's', 'p'], decText v] :=
      calc splitTokens [] (dropComment (printEvent (.wrdisp v)))
        _ = ['w', 'r', 'd', 'i', 's', 'p'] :: splitTokens [] (dropComment (decText v) ++ []) := by
            rw [List.append_nil]; rfl
        _ = _ := by rw [hdrop, splitTokens_last hne (fun c hc => (decText_isTokenChar hc).1) (.inl rfl)]
    have hline : readTokens [['w', 'r', 'd', 'i', 's', 'p'], decText v] = some (.wrdisp v.toNat) := by
      simp [readTokens, readNumber_decText]
    have hv : v.toNat ≤ 255 := Nat.le_of_lt_succ v.isLt
    simp [assembleText, htokens, hline, AsmLine.wellFormed, hv, wrdisp_words low hv]
  | samptick l => cases l <;> rfl
  | muxtick => rfl
  | txack => rfl
  | rdent => rfl
  | reset => rfl

/-- A reserved word is printed with `.word`, which the assembler reads back (log entry 12). -/
theorem assembleText_printReserved (low : Bit) (w : EventWord) (r : RefuseReason) :
    assembleText low (printReserved w r) = some [w] := by
  have hdrop : dropComment (printReserved w r) = ['.', 'w', 'o', 'r', 'd', ' '] ++ (hexText w ++ [' ']) := by
    have hchars : ∀ c ∈ ['.', 'w', 'o', 'r', 'd', ' '] ++ (hexText w ++ [' ']), c ≠ ';' := by
      simp only [List.mem_append]
      rintro c (hc | hc | hc)
      · rintro rfl
        simp at hc
      · exact (hexText_isTokenChar hc).2
      · rintro rfl
        simp at hc
    calc dropComment (printReserved w r)
      _ = dropComment ((['.', 'w', 'o', 'r', 'd', ' '] ++ (hexText w ++ [' '])) ++
            (';' :: ([' ', 'i', 'n', 'v', 'a', 'l', 'i', 'd', ' '] ++ printReason r))) := rfl
      _ = _ := by rw [dropComment_append hchars]; simp [dropComment]
  have htokens : splitTokens [] (dropComment (printReserved w r)) = [['.', 'w', 'o', 'r', 'd'], hexText w] :=
    calc splitTokens [] (dropComment (printReserved w r))
      _ = ['.', 'w', 'o', 'r', 'd'] :: splitTokens [] (hexText w ++ [' ']) := by rw [hdrop]; rfl
      _ = _ := by rw [splitTokens_last (t := hexText w) nofun (fun _ => hexText_isTokenChar) (.inr rfl)]
  have hline : readTokens [['.', 'w', 'o', 'r', 'd'], hexText w] = some (.word w.toNat) := by
    simp [readTokens, readNumber_hexText]
  have hw : w.toNat < 65536 := w.isLt
  simp [assembleText, htokens, hline, AsmLine.wellFormed, AsmLine.words, hw]

/-- Settles O6: a word that decodes to an event is that event's encoding, any other is printed as `.word`. -/
theorem printThenAssembleGivesTheWord : Obligations.PrintThenAssembleGivesTheWord := by
  intro low w
  unfold disassemble
  cases hd : decodeEvent w with
  | event i => rw [(decodeEvent_eq_event_iff_eq_encode w i).1 hd]; exact assembleText_printEvent low i
  | invalid r => exact assembleText_printReserved low w r

end Sys2Proof
end

section
/-! PROOFS. The statements about the pulse sampler's ticks (42_pulse_sampler.md R150 to R154) and the cells they write
(20_memory.md R50). The layer below says what a SAMPTICK in CAPTURE answers: it only mirrors, stores its sample, fills
the buffer, or finds no free cell. -/

namespace Sys2Proof.Machine

/-! ### What a processed SAMPTICK answers -/

theorem State.decodeIfFull_of_ne {s : State} (hi : s.idx ≠ s.cfg.nSamples) : s.decodeIfFull = .next s := if_neg hi

/-- Without ARMED and without an active sample the tick only mirrors (R152, R153). -/
theorem exec_samptick_mirror {s : State} {l : Bit} (hr : s.refused = none) (hp : s.sphase = .capture)
    (ha : s.armed = false) (hb : sampleBit s.cfg l = false) :
    exec (.samptick l) s = .next (s.pinWrite .irmon false) := by
  rw [exec_samptick_capture hr hp, hb]
  simp [State.sampleTick, State.armOn, ha]

/-- A tick that finds no free cell mirrors and arms, and writes no cell (R154). -/
theorem exec_samptick_full {s : State} {l b : Bit} (hr : s.refused = none) (hp : s.sphase = .capture)
    (hb : sampleBit s.cfg l = b) (hi : s.cfg.nSamples ≤ s.idx) :
    exec (.samptick l) s = .next ((s.pinWrite .irmon b).armOn b) := by
  rw [exec_samptick_capture hr hp, hb]
  simp [State.sampleTick, Nat.not_lt.2 hi]

/-- A tick that is armed or arms stores its sample, and that is all while a cell stays free (R154). -/
theorem exec_samptick_stored {s : State} {l b : Bit} (hr : s.refused = none) (hp : s.sphase = .capture)
    (hb : sampleBit s.cfg l = b) (ha : s.armed = true ∨ b = true) (hi : s.idx + 1 < s.cfg.nSamples) :
    exec (.samptick l) s = .next (s.storedTick b) := by
  have hfree : (s.storedTick b).idx ≠ s.cfg.nSamples := Nat.ne_of_lt hi
  rw [exec_samptick_capture hr hp, hb, State.sampleTick_eq_storedTick ha (by omega), State.decodeIfFull_of_ne hfree]

/-- The tick that fills the buffer begins the report of what the buffer then holds (R155). -/
theorem exec_samptick_filling {s : State} {l b : Bit} {B : List Bit} (hr : s.refused = none) (hp : s.sphase = .capture)
    (hb : sampleBit s.cfg l = b) (ha : s.armed = true ∨ b = true) (hi : s.idx + 1 = s.cfg.nSamples)
    (hB : (s.buf.write s.idx b).readRange 0 s.cfg.nSamples = some B) :
    exec (.samptick l) s = .next ((s.storedTick b).beginReport (decodeSamples s.cfg.tol B)) := by
  rw [exec_samptick_capture hr hp, hb, State.sampleTick_eq_storedTick ha (by omega)]
  exact State.decodeIfFull_full (s := s.storedTick b) hi hB

theorem sampleBit_eq_false_iff (c : Params) (l : Bit) : sampleBit c l = false ↔ l = c.irActiveLow := by
  unfold sampleBit
  cases c.irActiveLow <;> simp

/-- Settles O29: the inactive level is the sample 0, which does not arm. -/
theorem idleSampleIsOnlyMirrored : Obligations.IdleSampleIsOnlyMirrored :=
  fun l s hr hp ha hl => exec_samptick_mirror hr hp ha ((sampleBit_eq_false_iff s.cfg l).2 hl)

/-- Settles O30: the tick that stores and leaves a cell free. -/
theorem armedSampleIsStored : Obligations.ArmedSampleIsStored :=
  fun _ _ _ hr hp hb ha hi => exec_samptick_stored hr hp hb.symm ha hi

/-- Settles O32: in a refused state and in REPORT nothing happens, and in CAPTURE the tick finds no free cell. -/
theorem fullBufferIsNeverWritten : Obligations.FullBufferIsNeverWritten := by
  intro l s hi
  cases hr : s.refused with
  | some r => exact ⟨s, exec_refused hr _, rfl, rfl⟩
  | none =>
    cases hp : s.sphase with
    | report => exact ⟨s, exec_samptick_report hp l, rfl, rfl⟩
    | capture => exact ⟨_, exec_samptick_full hr hp rfl hi, by simp, by simp⟩

/-! ### The cells -/

/-- A SAMPTICK leaves every cell but the one at IDX. -/
theorem execSamptick_read_other {l : Bit} {s t : State} {i : Nat} (h : execSamptick l s = .next t) (hi : i ≠ s.idx) :
    t.buf.read i = s.buf.read i := by
  rcases execSamptick_next h with ⟨-, rfl⟩ | ⟨-, -, b, -, hmirror | hfull | hstore | hfill⟩
  · rfl
  · obtain ⟨-, rfl⟩ := hmirror
    simp
  · obtain ⟨-, -, rfl⟩ := hfull
    simp
  · obtain ⟨-, -, -, rfl⟩ := hstore
    simpa using Memory.read_write_other s.buf b hi
  · obtain ⟨-, -, B, -, rfl⟩ := hfill
    simpa using Memory.read_write_other s.buf b hi

/-- Settles O33: a SAMPTICK writes the cell at IDX, RESET empties the buffer, and no other event writes BUF. -/
theorem onlyTheCellAtIdxIsWritten : Obligations.OnlyTheCellAtIdxIsWritten := by
  refine ⟨fun l s t i h hi => execSamptick_read_other h hi, fun e s t i he hreset h => ?other, fun s t i hr h => ?reset⟩
  case other =>
    have hs : ∀ l, e ≠ .samptick l := by
      rintro l rfl
      exact he rfl
    rw [(exec_buf_irmon_eq hs hreset h).1]
  case reset =>
    rw [execReset_next_live hr h]
    rfl

end Sys2Proof.Machine
end

section
/-! PROOFS. The invariant of the machine (10_state.md R25 to R36; 42_pulse_sampler.md R154, R155, R158): every event
of a state that meets it answers a next state that meets it again (60_exceptions.md R200). The layer below takes the
two halves of the invariant apart: a half is kept by every event that leaves its fields, and the events that write
them are done one by one. -/

namespace Sys2Proof.Machine

/-! ### What the two halves speak of -/

/-- The display half speaks of the display's fields and the parameters only. -/
theorem State.DisplayInv.of_sameDisplay {s t : State} (h : s.DisplayInv) (hd : s.sameDisplay t) (hc : t.cfg = s.cfg) :
    t.DisplayInv := by
  have hpattern := hd.pattern_eq
  obtain ⟨hpos, -, -, hentropy, hselL, hselR, hsdata, hsclk, hlatch⟩ := hd
  refine ⟨?_, ?_, ?_, ?_, ?_⟩
  · rw [hentropy, hc]; exact h.entropy_lt
  · rw [hsclk]; exact h.sclk_idle
  · rw [hlatch]; exact h.latch_idle
  · simp only [State.unselected, State.selected, hselL, hselR, hpos, hsdata, hc, hpattern]
    exact h.select
  · simp only [hpattern, hc]
    exact h.patterns

/-- The sampler half speaks of the sampler's fields but IRMON, and of the parameters only. -/
theorem State.SamplerInv.congr {s t : State} (h : s.SamplerInv) (hsphase : t.sphase = s.sphase)
    (harmed : t.armed = s.armed) (hidx : t.idx = s.idx) (hbuf : t.buf = s.buf) (hacc : t.acc = s.acc)
    (htxk : t.txk = s.txk) (hc : t.cfg = s.cfg) : t.SamplerInv := by
  obtain ⟨hwf, hrange, hwritten, hunarmed, harm, hcapture, hreport⟩ := h
  constructor <;> simp only [hsphase, harmed, hidx, hbuf, hacc, htxk, hc] <;> assumption

theorem State.SamplerInv.of_sameSampler {s t : State} (h : s.SamplerInv) (hs : s.sameSampler t) (hc : t.cfg = s.cfg) :
    t.SamplerInv := by
  obtain ⟨hsphase, harmed, hidx, hbuf, hacc, htxk, -⟩ := hs
  exact h.congr hsphase harmed hidx hbuf hacc htxk hc

/-- The invariant does not speak of the queue. -/
theorem State.Inv.withEvents {s : State} (h : s.Inv) (ws : List EventWord) : { s with events := ws }.Inv :=
  ⟨h.params, h.display.of_sameDisplay s.sameDisplay_refl rfl, h.sampler.of_sameSampler s.sameSampler_refl rfl⟩

/-- The invariant does not speak of REFUSED. -/
theorem State.Inv.refuse {s : State} (h : s.Inv) (r : RefuseReason) : (s.refuse r).Inv :=
  ⟨h.params, h.display.of_sameDisplay s.sameDisplay_refl rfl, h.sampler.of_sameSampler s.sameSampler_refl rfl⟩

/-! ### The reset state -/

theorem segPattern_of_ge (c : Params) {v : Byte} (h : 100 ≤ v.toNat) (pos : Pos) : segPattern c v pos = 0x00 := by
  rw [segPattern, digitOf_of_ge h, segEncode_blank]

theorem State.resetRegisters_displayInv (s : State) : s.resetRegisters.DisplayInv where
  entropy_lt := Nat.two_pow_pos _
  sclk_idle := rfl
  latch_idle := rfl
  select := .inl ⟨rfl, rfl, rfl⟩
  patterns pos := ⟨0xFF, by rw [State.resetRegisters_pattern, segPattern_of_ge _ (by decide)]⟩

/-- An empty capture: CAPTURE, unarmed, nothing stored and no report. -/
theorem State.SamplerInv.of_idle {s : State} (hc : s.cfg.legal) (hwf : s.buf.wf)
    (hrange : ∀ x ∈ s.buf, x.1 < s.cfg.nSamples) (hp : s.sphase = .capture) (ha : s.armed = false) (hi : s.idx = 0)
    (hacc : s.acc = none) (hk : s.txk = 0) : s.SamplerInv where
  buf_wf := hwf
  buf_range := hrange
  written i h := by omega
  unarmed _ := hi
  armed h := by simp [ha] at h
  capture _ := ⟨hi ▸ hc.1, hacc, hk⟩
  report h := by simp [hp] at h

theorem State.resetRegisters_samplerInv {s : State} (hc : s.cfg.legal) : s.resetRegisters.SamplerInv :=
  .of_idle hc List.Pairwise.nil nofun rfl rfl rfl rfl rfl

theorem State.resetRegisters_inv {s : State} (hc : s.cfg.legal) : s.resetRegisters.Inv :=
  ⟨hc, s.resetRegisters_displayInv, State.resetRegisters_samplerInv hc⟩

/-! ### A multiplex tick -/

@[simp] theorem State.muxTick_sdata (s : State) :
    s.muxTick.sdata = wireBit s.cfg (segPattern s.cfg s.dispval s.pos.other) 0 := by rw [State.muxTick_eq]

@[simp] theorem State.muxTick_sclk (s : State) : s.muxTick.sclk = false := by rw [State.muxTick_eq]

@[simp] theorem State.muxTick_latch (s : State) : s.muxTick.latch = false := by rw [State.muxTick_eq]

theorem State.DisplayInv.muxTick {s : State} (h : s.DisplayInv) : s.muxTick.DisplayInv where
  entropy_lt := by
    rw [State.muxTick_entropy, State.muxTick_cfg]
    exact Nat.mod_lt _ (Nat.two_pow_pos _)
  sclk_idle := s.muxTick_sclk
  latch_idle := s.muxTick_latch
  select := by
    obtain ⟨hL, hR⟩ := s.muxTick_select
    refine .inr ⟨hL, hR, ?_⟩
    rw [State.muxTick_sdata, State.muxTick_cfg, State.muxTick_pos, State.muxTick_pattern_serviced]
  patterns q := by
    rw [State.muxTick_cfg, State.muxTick_pattern]
    split
    · exact ⟨s.dispval, rfl⟩
    · exact h.patterns q

/-! ### A sample tick -/

/-- Under the invariant the cells below IDX are readable. -/
theorem State.SamplerInv.exists_stored {s : State} (h : s.SamplerInv) : ∃ B, s.buf.readRange 0 s.idx = some B :=
  Option.isSome_iff_exists.1 ((s.buf.readRange_isSome 0 s.idx).2 fun j hj => by
    rw [Nat.zero_add]
    exact h.written j hj)

/-- The three things a live SAMPTICK in CAPTURE can do to a state that meets the invariant, and that it does one of
them. -/
theorem State.SamplerInv.exec_samptick_cases {s : State} (h : s.SamplerInv) (hr : s.refused = none)
    (hp : s.sphase = .capture) (l : Bit) :
    (s.armed = false ∧ exec (.samptick l) s = .next (s.pinWrite .irmon false)) ∨
      ∃ b B, (s.armed = true ∨ b = true) ∧ s.buf.readRange 0 s.idx = some B ∧
        ((s.idx + 1 < s.cfg.nSamples ∧ exec (.samptick l) s = .next (s.storedTick b)) ∨
          (s.idx + 1 = s.cfg.nSamples ∧
            exec (.samptick l) s = .next ((s.storedTick b).beginReport (decodeSamples s.cfg.tol (B ++ [b]))))) := by
  obtain ⟨hi, -, -⟩ := h.capture hp
  obtain ⟨B, hB⟩ := h.exists_stored
  by_cases ha : s.armed = true ∨ sampleBit s.cfg l = true
  · refine .inr ⟨_, B, ha, hB, ?_⟩
    by_cases hfree : s.idx + 1 < s.cfg.nSamples
    · exact .inl ⟨hfree, exec_samptick_stored hr hp rfl ha hfree⟩
    · have hfull : s.idx + 1 = s.cfg.nSamples := by omega
      exact .inr ⟨hfull, exec_samptick_filling hr hp rfl ha hfull (hfull ▸ Memory.readRange_write _ hB)⟩
  · simp only [not_or, Bool.not_eq_true] at ha
    exact .inl ⟨ha.1, exec_samptick_mirror hr hp ha.1 ha.2⟩

section
variable {s : State} {b : Bit} (h : s.SamplerInv) (hi : s.idx < s.cfg.nSamples) (ha : s.armed = true ∨ b = true)
include h

theorem State.SamplerInv.storedTick_written (i : Nat) (hlt : i < (s.storedTick b).idx) :
    ((s.storedTick b).buf.read i).isSome = true := by
  change i < s.idx + 1 at hlt
  change ((s.buf.write s.idx b).read i).isSome = true
  by_cases heq : i = s.idx
  · rw [heq, Memory.read_write_same]; rfl
  · rw [Memory.read_write_other s.buf b heq]
    exact h.written i (by omega)

include ha

/-- The arming sample is stored at index 0 and is a 1; later ones leave it (R153, R158). -/
theorem State.SamplerInv.storedTick_first : (s.buf.write s.idx b).read 0 = some true := by
  cases harmed : s.armed with
  | false =>
    have hb : b = true := ha.resolve_left (by simp [harmed])
    rw [h.unarmed harmed, hb, Memory.read_write_same]
  | true =>
    obtain ⟨hpos, hfirst⟩ := h.armed harmed
    rw [Memory.read_write_other s.buf b (by omega), hfirst]

include hi

/-- A stored sample that leaves a cell free keeps the invariant. -/
theorem State.SamplerInv.storedTick (hp : s.sphase = .capture) (hfree : s.idx + 1 < s.cfg.nSamples) :
    (s.storedTick b).SamplerInv where
  buf_wf := Memory.write_wf h.buf_wf s.idx b
  buf_range := Memory.write_range h.buf_range hi
  written := h.storedTick_written
  unarmed hnot := by simp [State.storedTick] at hnot
  armed _ := ⟨Nat.succ_pos _, h.storedTick_first ha⟩
  capture _ := ⟨hfree, (h.capture hp).2⟩
  report hreport := by simp [State.storedTick, hp] at hreport

/-- The sample that fills the buffer, with the report it begins, keeps the invariant. -/
theorem State.SamplerInv.storedTick_beginReport {B : List Bit} (hfull : s.idx + 1 = s.cfg.nSamples)
    (hB : s.buf.readRange 0 s.idx = some B) :
    ((s.storedTick b).beginReport (decodeSamples s.cfg.tol (B ++ [b]))).SamplerInv where
  buf_wf := Memory.write_wf h.buf_wf s.idx b
  buf_range := Memory.write_range h.buf_range hi
  written := h.storedTick_written
  unarmed hnot := by simp [State.storedTick] at hnot
  armed _ := ⟨Nat.succ_pos _, h.storedTick_first ha⟩
  capture hcapture := by simp at hcapture
  report _ := ⟨hfull, B ++ [b], hfull ▸ Memory.readRange_write b hB, rfl⟩

end

/-- A live SAMPTICK of a state that meets the sampler's invariant answers a next state that meets it. -/
theorem State.SamplerInv.exec_samptick {s : State} (h : s.SamplerInv) (hr : s.refused = none) (l : Bit) :
    ∃ t, exec (.samptick l) s = .next t ∧ t.SamplerInv := by
  cases hp : s.sphase with
  | report => exact ⟨s, exec_samptick_report hp l, h⟩
  | capture =>
    obtain ⟨hi, -, -⟩ := h.capture hp
    rcases h.exec_samptick_cases hr hp l with ⟨-, he⟩ | ⟨b, B, ha, hB, ⟨hfree, he⟩ | ⟨hfull, he⟩⟩
    · exact ⟨_, he, h.congr rfl rfl rfl rfl rfl rfl rfl⟩
    · exact ⟨_, he, h.storedTick hi ha hp hfree⟩
    · exact ⟨_, he, h.storedTick_beginReport hi ha hfull hB⟩

/-! ### A TXACK -/

theorem State.SamplerInv.acc_of_report {s : State} (h : s.SamplerInv) (hp : s.sphase = .report) :
    ∃ a, s.acc = some a := by
  obtain ⟨-, B, -, hacc⟩ := h.report hp
  exact ⟨_, hacc⟩

/-- Taking a byte keeps the invariant: TXK moves on in REPORT, or the report ends in an empty capture (R178, R179). -/
theorem State.SamplerInv.afterByte {s : State} (h : s.SamplerInv) (hc : s.cfg.legal) (hp : s.sphase = .report) :
    s.afterByte.SamplerInv := by
  rcases s.afterByte_cases with ⟨-, he⟩ | ⟨-, he⟩
  · rw [he]
    exact .of_idle hc h.buf_wf h.buf_range rfl rfl rfl rfl rfl
  · rw [he]
    exact ⟨h.buf_wf, h.buf_range, h.written, h.unarmed, h.armed, fun hcapture => by simp [hp] at hcapture, h.report⟩

/-- A live TXACK of a state that meets the sampler's invariant answers a next state that meets it. -/
theorem State.SamplerInv.exec_txack {s : State} (h : s.SamplerInv) (hc : s.cfg.legal) (hr : s.refused = none) :
    ∃ t, exec .txack s = .next t ∧ t.SamplerInv := by
  cases hp : s.sphase with
  | capture => exact ⟨_, exec_txack_capture hr hp, h.congr rfl rfl rfl rfl rfl rfl rfl⟩
  | report =>
    obtain ⟨a, ha⟩ := h.acc_of_report hp
    have hemit : (s.emit (.tx (reportByte a s.txk.val))).SamplerInv := h.congr rfl rfl rfl rfl rfl rfl rfl
    exact ⟨_, exec_txack_report hr hp ha, hemit.afterByte hc hp⟩

/-! ### Every event, every step and every run -/

/-- Every event of a state that meets the invariant answers a next state that meets it. -/
theorem State.Inv.exec {s : State} (h : s.Inv) (i : Instr) : ∃ t, exec i s = .next t ∧ t.Inv := by
  have keep {t : State} (he : Machine.exec i s = .next t) (hd : t.DisplayInv) (hs : t.SamplerInv) : t.Inv :=
    ⟨by rw [eventsKeepParameters i s t he]; exact h.params, hd, hs⟩
  have keepDisplay {t : State} (hm : i ≠ .muxtick) (hreset : i ≠ .reset) (he : Machine.exec i s = .next t) :
      t.DisplayInv := h.display.of_sameDisplay (exec_sameDisplay hm hreset he) (eventsKeepParameters i s t he)
  have keepSampler {t : State} (hi : i.agent = .host ∨ i.agent = .muxtimer) (he : Machine.exec i s = .next t) :
      t.SamplerInv := h.sampler.of_sameSampler (exec_sameSampler hi he) (eventsKeepParameters i s t he)
  cases hr : s.refused with
  | some r => exact ⟨s, exec_refused hr i, h⟩
  | none =>
    cases i with
    | wrdisp v =>
      have he := exec_wrdisp_live hr v
      exact ⟨_, he, keep he (keepDisplay nofun nofun he) (keepSampler (.inl rfl) he)⟩
    | muxtick =>
      have he := exec_muxtick_live hr
      exact ⟨_, he, keep he h.display.muxTick (keepSampler (.inr rfl) he)⟩
    | samptick l =>
      obtain ⟨t, he, hs⟩ := h.sampler.exec_samptick hr l
      exact ⟨t, he, keep he (keepDisplay nofun nofun he) hs⟩
    | txack =>
      obtain ⟨t, he, hs⟩ := h.sampler.exec_txack h.params hr
      exact ⟨t, he, keep he (keepDisplay nofun nofun he) hs⟩
    | rdent =>
      have he := exec_rdent_live hr
      exact ⟨_, he, keep he (keepDisplay nofun nofun he) (keepSampler (.inl rfl) he)⟩
    | reset =>
      have hreset := State.resetRegisters_inv h.params
      have he := exec_reset_live hr
      exact ⟨_, he, keep he (hreset.display.of_sameDisplay (State.sameDisplay_refl _) rfl)
        (hreset.sampler.of_sameSampler (State.sameSampler_refl _) rfl)⟩

/-- Applying a word, reserved or not, to a state that meets the invariant. -/
theorem State.Inv.applyWord {s : State} (h : s.Inv) (w : EventWord) : ∃ t, applyWord w s = .next t ∧ t.Inv := by
  cases hr : s.refused with
  | some r => exact ⟨s, applyWord_refused hr w, h⟩
  | none =>
    rcases applyWord_live hr w with ⟨i, -, he⟩ | ⟨r, -, he⟩
    · rw [he]
      exact h.exec i
    · exact ⟨_, he, h.refuse r⟩

theorem State.Inv.step {s : State} (h : s.Inv) : ∃ t, step s = .next t ∧ t.Inv := by
  rcases step_of_events s with ⟨-, he⟩ | ⟨w, rest, -, he⟩
  · exact ⟨s, he, h⟩
  · rw [he]
    exact (h.withEvents rest).applyWord w

/-- Settles O50: the step of a state that meets the invariant, which is one next state. -/
theorem stepKeepsTheMachineInvariant : Obligations.StepKeepsTheMachineInvariant := by
  intro s t h ht
  obtain ⟨t', ht', hinv⟩ := h.step
  cases ht.symm.trans ht'
  exact hinv

/-- Settles O51, by induction on the number of steps. -/
theorem noEventFaultsOrHalts : Obligations.NoEventFaultsOrHalts := by
  intro k
  induction k with
  | zero => exact fun s h => ⟨s, run_zero s, h⟩
  | succ k ih =>
    intro s h
    obtain ⟨t, ht, hinv⟩ := h.step
    rw [run_next ht]
    exact ih t hinv

end Sys2Proof.Machine
end

section
/-! PROOFS. The trace (10_state.md R44): how many items each event appends, the 28 items of a tick by number
(41_display_multiplexer.md R127), the samples it shows on IRMON (42_pulse_sampler.md R158) and the level it says each
pin holds. The layer below gives the trace and the queue after each event. -/

namespace Sys2Proof.Machine

/-! ### The trace and the queue after each event -/

@[simp] theorem State.muxTick_trace (s : State) :
    s.muxTick.trace = s.trace ++ tickItems s.cfg s.pos.other (segPattern s.cfg s.dispval s.pos.other) := by
  rw [State.muxTick_eq]

@[simp] theorem State.muxTick_events (s : State) : s.muxTick.events = s.events := by rw [State.muxTick_eq]

@[simp] theorem State.afterByte_trace (s : State) : s.afterByte.trace = s.trace := by
  rcases s.afterByte_cases with ⟨-, he⟩ | ⟨-, he⟩ <;> simp [he]

theorem tickItems_length (c : Params) (q : Pos) (p : Byte) : (tickItems c q p).length = 28 := rfl

/-- A live SAMPTICK mirrors its sample in CAPTURE and does nothing in REPORT (42_pulse_sampler.md R150). -/
theorem execSamptick_trace {l : Bit} {s t : State} (hr : s.refused = none) (h : execSamptick l s = .next t) :
    t.trace = s.trace ++ if s.sphase = .capture then [.pin .irmon (sampleBit s.cfg l)] else [] := by
  rcases execSamptick_next h with ⟨hidle, rfl⟩ | ⟨-, hp, b, rfl, hmirror | hfull | hstore | hfill⟩
  · have hp : t.sphase = .report := hidle.resolve_left fun hn => hn hr
    simp [hp]
  · obtain ⟨-, rfl⟩ := hmirror
    simp [hp]
  · obtain ⟨-, -, rfl⟩ := hfull
    simp [hp]
  · obtain ⟨-, -, -, rfl⟩ := hstore
    simp [hp]
  · obtain ⟨-, -, B, -, rfl⟩ := hfill
    simp [hp]

/-- A TXACK that is not refused appends one byte in REPORT; one in CAPTURE appends nothing (43_duration_decoder.md R178,
R180). -/
theorem execTxack_trace {s t : State} (hr : s.refused = none) (h : execTxack s = .next t) :
    (s.sphase = .capture ∧ t.trace = s.trace) ∨
      (s.sphase = .report ∧ ∃ a, s.acc = some a ∧ t.trace = s.trace ++ [.tx (reportByte a s.txk.val)]) := by
  rcases execTxack_next h with ⟨hn, -⟩ | ⟨-, hp, rfl⟩ | ⟨-, hp, a, ha, rfl⟩
  · exact absurd hr hn
  · exact .inl ⟨hp, rfl⟩
  · exact .inr ⟨hp, a, ha, by simp⟩

/-- No event takes or delivers event words. -/
theorem exec_events_eq {i : Instr} {s t : State} (h : exec i s = .next t) : t.events = s.events := by
  cases i with
  | wrdisp v => rcases execWrdisp_next h with ⟨-, rfl⟩ | ⟨-, rfl⟩ <;> rfl
  | muxtick =>
    rcases execMuxtick_next h with ⟨-, rfl⟩ | ⟨-, rfl⟩
    · rfl
    · exact s.muxTick_events
  | samptick l => exact (congrArg State.events (execSamptick_frame h) :)
  | txack => exact (congrArg State.events (execTxack_frame h) :)
  | rdent => rcases execRdent_next h with ⟨-, rfl⟩ | ⟨-, rfl⟩ <;> rfl
  | reset => rcases execReset_next h with ⟨-, rfl⟩ | ⟨-, rfl⟩ <;> rfl

/-- Settles O12: the queue stays, and each event's items are the ones of its rule. -/
theorem traceGrowsByTheEventsItems : Obligations.TraceGrowsByTheEventsItems := by
  refine fun i s t hr h => ⟨exec_events_eq h, ?_⟩
  cases i with
  | wrdisp v =>
    cases (exec_wrdisp_live hr v).symm.trans h
    exact ⟨[], (List.append_nil _).symm, rfl⟩
  | muxtick =>
    rw [exec_muxtick_next_live hr h]
    exact ⟨_, s.muxTick_trace, tickItems_length _ _ _⟩
  | samptick l =>
    refine ⟨_, execSamptick_trace hr h, ?_⟩
    cases s.sphase <;> rfl
  | txack =>
    rcases execTxack_trace hr h with ⟨hp, ht⟩ | ⟨hp, a, -, ht⟩
    · exact ⟨[], by rw [ht, List.append_nil], by simp [hp]⟩
    · exact ⟨_, ht, by simp [hp]⟩
  | rdent =>
    cases (exec_rdent_live hr).symm.trans h
    exact ⟨_, rfl, rfl⟩
  | reset =>
    rw [execReset_next_live hr h]
    exact ⟨_, rfl, rfl⟩

/-! ### The items of a tick by number -/

/-- The select items of a tick: the other line is released, then the serviced one asserted (R122). -/
theorem tickItems_select (c : Params) (q : Pos) (p : Byte) :
    (tickItems c q p)[0]? = some (.pin q.other.selectPin false) ∧
      (tickItems c q p)[1]? = some (.pin q.selectPin true) := ⟨rfl, rfl⟩

/-- The three items of bit 7 - j (R123). -/
theorem tickItems_bit (c : Params) (q : Pos) (p : Byte) {j : Nat} (hj : j < 8) :
    (tickItems c q p)[2 + 3 * j]? = some (.pin .sdata (wireBit c p (7 - j))) ∧
      (tickItems c q p)[3 + 3 * j]? = some (.pin .sclk true) ∧
      (tickItems c q p)[4 + 3 * j]? = some (.pin .sclk false) := by
  interval_cases j <;> exact ⟨rfl, rfl, rfl⟩

/-- Settles O15: a live tick appends `tickItems`, whose items by number are the rule's. -/
theorem muxtickItemsByNumber : Obligations.MuxtickItemsByNumber := by
  intro s hr
  refine ⟨_, _, _, exec_muxtick_live hr, s.muxTick_trace, ?_, tickItems_length _ _ _, ?left, ?right,
    fun j hj => tickItems_bit _ _ _ hj, rfl, rfl, s.muxTick_sclk, s.muxTick_latch, s.muxTick_sdata⟩
  · rw [State.muxTick_pos]; rfl
  case left =>
    intro hpos
    rw [State.muxTick_pos] at hpos
    rw [hpos]
    exact tickItems_select _ .left _
  case right =>
    intro hpos
    rw [State.muxTick_pos] at hpos
    rw [hpos]
    exact tickItems_select _ .right _

/-! ### The samples shown on IRMON -/

/-- Items that mirror no sample keep the buffer the mirror, if the buffer stays. -/
theorem State.BufferIsMirror.of_items {s t : State} {items : List Item} (h : s.BufferIsMirror)
    (htrace : t.trace = s.trace ++ items) (hitems : items.filterMap irmonSample = []) (hidx : t.idx = s.idx)
    (hbuf : t.buf = s.buf) : t.BufferIsMirror := by
  obtain ⟨before, B, hsamples, hlength, hB⟩ := h
  refine ⟨before, B, ?_, hlength.trans hidx.symm, ?_⟩
  · rw [htrace, List.filterMap_append, hsamples, hitems, List.append_nil]
  · rw [hbuf, hidx, hB]

/-- An empty capture mirrors nothing. -/
theorem State.BufferIsMirror.of_idx_zero {s : State} (hi : s.idx = 0) : s.BufferIsMirror :=
  ⟨s.trace.filterMap irmonSample, [], (List.append_nil _).symm, hi.symm, by rw [hi]; rfl⟩

/-- A stored sample is the last one mirrored. -/
theorem State.BufferIsMirror.storedTick {s : State} (h : s.BufferIsMirror) (b : Bit) :
    (s.storedTick b).BufferIsMirror := by
  obtain ⟨before, B, hsamples, hlength, hB⟩ := h
  refine ⟨before, B ++ [b], ?_, ?_, Memory.readRange_write b hB⟩
  · simp [State.storedTick, hsamples, irmonSample]
  · simp [State.storedTick, hlength]

theorem tickItems_filterMap_irmonSample (c : Params) (q : Pos) (p : Byte) :
    (tickItems c q p).filterMap irmonSample = [] := by cases q <;> rfl

/-- A sample tick keeps the buffer the mirror: a sample is stored exactly when it is mirrored with ARMED on. -/
theorem State.BufferIsMirror.exec_samptick {s t : State} {l : Bit} (h : s.BufferIsMirror) (hs : s.SamplerInv)
    (hr : s.refused = none) (ht : exec (.samptick l) s = .next t) : t.BufferIsMirror := by
  cases hp : s.sphase with
  | report =>
    cases (exec_samptick_report hp l).symm.trans ht
    exact h
  | capture =>
    rcases hs.exec_samptick_cases hr hp l with ⟨ha, he⟩ | ⟨b, B, -, -, ⟨-, he⟩ | ⟨-, he⟩⟩
    · cases he.symm.trans ht
      exact .of_idx_zero (hs.unarmed ha)
    · cases he.symm.trans ht
      exact h.storedTick b
    · cases he.symm.trans ht
      exact h.storedTick b

theorem State.BufferIsMirror.exec_txack {s t : State} (h : s.BufferIsMirror) (hr : s.refused = none)
    (ht : exec .txack s = .next t) : t.BufferIsMirror := by
  rcases execTxack_next ht with ⟨hn, -⟩ | ⟨-, -, rfl⟩ | ⟨-, -, a, -, rfl⟩
  · exact absurd hr hn
  · exact h
  · rcases State.afterByte_cases (s.emit (.tx (reportByte a s.txk.val))) with ⟨-, he⟩ | ⟨-, he⟩
    · rw [he]
      exact .of_idx_zero rfl
    · rw [he]
      exact h.of_items (items := [.tx _]) rfl rfl rfl rfl

theorem State.BufferIsMirror.exec {i : Instr} {s t : State} (h : s.BufferIsMirror) (hs : s.SamplerInv)
    (ht : exec i s = .next t) : t.BufferIsMirror := by
  cases hr : s.refused with
  | some r =>
    cases (exec_refused hr i).symm.trans ht
    exact h
  | none =>
    cases i with
    | wrdisp v =>
      cases (exec_wrdisp_live hr v).symm.trans ht
      exact h
    | muxtick =>
      obtain ⟨-, -, hidx, hbuf, -⟩ := exec_sameSampler (.inr rfl) ht
      rw [exec_muxtick_next_live hr ht] at hidx hbuf ⊢
      exact h.of_items s.muxTick_trace (tickItems_filterMap_irmonSample _ _ _) hidx hbuf
    | samptick l => exact h.exec_samptick hs hr ht
    | txack => exact h.exec_txack hr ht
    | rdent =>
      cases (exec_rdent_live hr).symm.trans ht
      exact h.of_items (items := [.rd _]) rfl rfl rfl rfl
    | reset =>
      rw [execReset_next_live hr ht]
      exact .of_idx_zero rfl

/-! ### What every step keeps, from what every event keeps -/

/-- A property of states that the queue and REFUSED do not bear on, and that every event keeps, is kept by every step.
-/
theorem step_keeps {P : State → Prop} {s t : State} (hevents : ∀ ws, P { s with events := ws })
    (hrefuse : ∀ ws r, P (State.refuse { s with events := ws } r))
    (hexec : ∀ ws i t, exec i { s with events := ws } = .next t → P t) (hs : P s) (h : step s = .next t) : P t := by
  rcases step_of_events s with ⟨-, he⟩ | ⟨w, rest, -, he⟩
  · cases he.symm.trans h
    exact hs
  · rw [he] at h
    cases hr : s.refused with
    | some r =>
      cases (applyWord_refused (s := { s with events := rest }) hr w).symm.trans h
      exact hevents rest
    | none =>
      rcases applyWord_live (s := { s with events := rest }) hr w with ⟨i, -, he⟩ | ⟨r, -, he⟩
      · exact hexec rest i t (he.symm.trans h)
      · cases he.symm.trans h
        exact hrefuse rest r

/-- Settles O52: the mirror does not bear on the queue or REFUSED, and every event keeps it. -/
theorem stepKeepsBufferTheLastSamples : Obligations.StepKeepsBufferTheLastSamples := fun s _ hinv h =>
  step_keeps (fun _ => h) (fun _ _ => h)
    (fun ws _ _ ht => State.BufferIsMirror.exec (s := { s with events := ws }) h (hinv.withEvents ws).sampler ht) h

/-! ### The pins that the trace says -/

theorem levelAfter_concat (p : Pin) (level : Bit) (ts : List Item) (x : Item) :
    levelAfter p level (ts ++ [x]) = levelStep p (levelAfter p level ts) x := List.foldl_concat ..

/-- Writes to other fields than the pins and the trace. -/
theorem State.PinsFollowTrace.frame {s t : State} (h : s.PinsFollowTrace) (hpins : ∀ p, t.pinLevel p = s.pinLevel p)
    (htrace : t.trace = s.trace) : t.PinsFollowTrace := fun p => by rw [hpins, htrace, h p]

/-- A pin write sets the register and says so (R17). -/
theorem State.PinsFollowTrace.pinWrite {s : State} (h : s.PinsFollowTrace) (p : Pin) (v : Bit) :
    (s.pinWrite p v).PinsFollowTrace := fun q => by
  rw [State.pinWrite_pinLevel, State.pinWrite_trace, levelAfter_concat, levelStep, h q]

/-- An item that leaves every pin. -/
theorem State.PinsFollowTrace.emit {s : State} {x : Item} (h : s.PinsFollowTrace)
    (hx : ∀ p level, levelStep p level x = level) : (s.emit x).PinsFollowTrace := fun p => by
  have hpin : (s.emit x).pinLevel p = s.pinLevel p := by cases p <;> rfl
  rw [hpin, State.emit_trace, levelAfter_concat, hx, h p]

theorem State.PinsFollowTrace.pulse {s : State} (h : s.PinsFollowTrace) (p : Pin) : (s.pulse p).PinsFollowTrace :=
  (h.pinWrite p true).pinWrite p false

theorem State.PinsFollowTrace.countTick {s : State} (h : s.PinsFollowTrace) : s.countTick.PinsFollowTrace :=
  h.frame (fun p => by cases p <;> rfl) rfl

theorem State.PinsFollowTrace.setPattern {s : State} (h : s.PinsFollowTrace) (q : Pos) (p : Byte) :
    (s.setPattern q p).PinsFollowTrace := h.frame (fun r => by cases q <;> cases r <;> rfl) (by simp)

theorem State.PinsFollowTrace.shiftBit {s : State} (h : s.PinsFollowTrace) (p : Byte) (k : Nat) :
    (s.shiftBit p k).PinsFollowTrace := (h.pinWrite .sdata _).pulse .sclk

theorem State.shiftOut_cons (s : State) (p : Byte) (k : Nat) (ks : List Nat) :
    s.shiftOut p (k :: ks) = (s.shiftBit p k).shiftOut p ks := by
  simp only [State.shiftOut, List.foldl_cons]

theorem State.PinsFollowTrace.shiftOut {s : State} (h : s.PinsFollowTrace) (p : Byte) (ks : List Nat) :
    (s.shiftOut p ks).PinsFollowTrace := by
  induction ks generalizing s with
  | nil => exact h
  | cons k ks ih =>
    rw [State.shiftOut_cons]
    exact ih (h.shiftBit p k)

/-- A tick drives the pins by pin writes only (41_display_multiplexer.md R121 to R124). -/
theorem State.PinsFollowTrace.muxTick {s : State} (h : s.PinsFollowTrace) : s.muxTick.PinsFollowTrace := by
  have hpos : State.PinsFollowTrace { s with pos := s.pos.other } := h.frame (fun p => by cases p <;> rfl) rfl
  have hpattern := hpos.setPattern s.pos.other (segPattern s.cfg s.dispval s.pos.other)
  have hselect := (hpattern.pinWrite s.pos.other.other.selectPin false).pinWrite s.pos.other.selectPin true
  have hlatch := (hselect.shiftOut (segPattern s.cfg s.dispval s.pos.other) shiftOrder).pulse .latch
  exact hlatch.countTick

theorem State.PinsFollowTrace.exec_samptick {s t : State} {l : Bit} (h : s.PinsFollowTrace)
    (ht : execSamptick l s = .next t) : t.PinsFollowTrace := by
  have harm (b : Bit) : ((s.pinWrite .irmon b).armOn b).PinsFollowTrace :=
    (h.pinWrite .irmon b).frame (fun p => by rw [State.armOn_eq_or]; cases p <;> rfl) (State.armOn_trace _ _)
  rcases execSamptick_next ht with ⟨-, rfl⟩ | ⟨-, -, b, -, hmirror | hfull | hstore | hfill⟩
  · exact h
  · obtain ⟨-, rfl⟩ := hmirror
    exact h.pinWrite .irmon b
  · obtain ⟨-, -, rfl⟩ := hfull
    exact harm b
  · obtain ⟨-, -, -, rfl⟩ := hstore
    exact (harm b).frame (fun p => by cases p <;> rfl) rfl
  · obtain ⟨-, -, B, -, rfl⟩ := hfill
    exact (harm b).frame (fun p => by cases p <;> rfl) rfl

theorem State.PinsFollowTrace.refuse {s : State} (h : s.PinsFollowTrace) (r : RefuseReason) :
    (s.refuse r).PinsFollowTrace := h.frame (fun p => by cases p <;> rfl) rfl

theorem State.PinsFollowTrace.exec_txack {s t : State} (h : s.PinsFollowTrace) (ht : execTxack s = .next t) :
    t.PinsFollowTrace := by
  rcases execTxack_next ht with ⟨-, rfl⟩ | ⟨-, -, rfl⟩ | ⟨-, -, a, -, rfl⟩
  · exact h
  · exact h.refuse _
  · have hbyte : (s.emit (.tx (reportByte a s.txk.val))).PinsFollowTrace := h.emit fun _ _ => rfl
    rcases State.afterByte_cases (s.emit (.tx (reportByte a s.txk.val))) with ⟨-, he⟩ | ⟨-, he⟩
    · rw [he]
      exact hbyte.frame (fun p => by cases p <;> rfl) rfl
    · rw [he]
      exact hbyte.frame (fun p => by cases p <;> rfl) rfl

/-- RESET puts every pin at 0, which its item says (70_reset_and_hazards.md R220). -/
theorem State.PinsFollowTrace.reset (s : State) : (s.resetRegisters.emit .rst).PinsFollowTrace := fun p => by
  rw [State.emit_trace, levelAfter_concat]
  cases p <;> rfl

theorem State.PinsFollowTrace.exec {i : Instr} {s t : State} (h : s.PinsFollowTrace) (ht : exec i s = .next t) :
    t.PinsFollowTrace := by
  cases i with
  | wrdisp v =>
    rcases execWrdisp_next ht with ⟨-, rfl⟩ | ⟨-, rfl⟩
    · exact h
    · exact h.frame (fun p => by cases p <;> rfl) rfl
  | muxtick =>
    rcases execMuxtick_next ht with ⟨-, rfl⟩ | ⟨-, rfl⟩
    · exact h
    · exact h.muxTick
  | samptick l => exact h.exec_samptick ht
  | txack => exact h.exec_txack ht
  | rdent =>
    rcases execRdent_next ht with ⟨-, rfl⟩ | ⟨-, rfl⟩
    · exact h
    · exact h.emit fun _ _ => rfl
  | reset =>
    rcases execReset_next ht with ⟨-, rfl⟩ | ⟨-, rfl⟩
    · exact h
    · exact State.PinsFollowTrace.reset s

/-- Settles O53: every event writes the pins by pin writes, or by a RESET that sets them all to 0. -/
theorem stepKeepsPinsAsTraced : Obligations.StepKeepsPinsAsTraced := fun s _ h ht =>
  have hqueue (ws : List EventWord) : State.PinsFollowTrace { s with events := ws } :=
    h.frame (fun p => by cases p <;> rfl) rfl
  step_keeps hqueue (fun ws r => (hqueue ws).refuse r) (fun ws _ _ => (hqueue ws).exec) h ht

end Sys2Proof.Machine
end

section
/-! PROOFS. The step (00_scope.md R18; 60_exceptions.md R203, R214), the power-on state (70_reset_and_hazards.md
R222), what the invariant says of FULL (10_state.md R33) and of the offered byte (R43), and the display's statements
on two events: idempotent host accesses (20_memory.md R60), the torn display (70_reset_and_hazards.md R226) and the
patterns of a legal SEG_TABLE (40_segment_encoder.md R101). -/

namespace Sys2Proof.Machine

/-! ### The step -/

theorem step_of_cons {s : State} {w : EventWord} {rest : List EventWord} (h : s.events = w :: rest) :
    step s = applyWord w { s with events := rest } := by
  simp only [step, State.takeEvent, h]

theorem step_of_nil {s : State} (h : s.events = []) : step s = .next s := by
  simp only [step, State.takeEvent, h]

theorem step_withFetchWord (s : State) {n : Nat} (hn : n < 65536) :
    step (s.withFetchWord 16 n) = applyWord (BitVec.ofNat 16 n) s := by
  rw [State.withFetchWord, Nat.mod_eq_of_lt (b := 2 ^ 16) hn]
  rfl

theorem applyWord_event_live {s : State} {w : EventWord} {i : Instr} (hr : s.refused = none)
    (hw : decodeEvent w = .event i) : applyWord w s = exec i s := by
  rw [applyWord, State.whenLive_live hr, hw]

/-- A live step runs the event of the next word on the state without it. -/
theorem step_event {s : State} {w : EventWord} {rest : List EventWord} {i : Instr} (h : s.events = w :: rest)
    (hr : s.refused = none) (hw : decodeEvent w = .event i) : step s = exec i { s with events := rest } := by
  rw [step_of_cons h, applyWord_event_live (s := { s with events := rest }) hr hw]

/-- Settles O9: what a step takes off the queue, and what applying that word does. -/
theorem stepRunsTheDecodedEvent : Obligations.StepRunsTheDecodedEvent := by
  refine ⟨fun s w rest i h hr hw => step_event h hr hw, fun s w rest r h hr hw => ?invalid,
    fun s w rest h hr => ?refused, fun s n i hn hr hw => ?fetchEvent, fun s n r hn hr hw => ?fetchInvalid,
    fun s n hr => ?fetchRefused, fun s => step_of_nil⟩
  case invalid =>
    rw [step_of_cons h, applyWord_invalid_live (s := { s with events := rest }) hr hw]
    rfl
  case refused =>
    obtain ⟨r, hr⟩ := Option.ne_none_iff_exists'.1 hr
    rw [step_of_cons h, applyWord_refused (s := { s with events := rest }) hr]
  case fetchEvent => rw [step_withFetchWord s hn, applyWord_event_live hr hw]
  case fetchInvalid =>
    rw [step_withFetchWord s hn, applyWord_invalid_live hr hw]
    rfl
  case fetchRefused =>
    obtain ⟨r, hr⟩ := Option.ne_none_iff_exists'.1 hr
    exact applyWord_refused hr _

/-! ### Power-on -/

/-- Settles O45: RESET writes every register; the parameters and REFUSED are the built ones and none. -/
theorem powerOnIsTheResetState : Obligations.PowerOnIsTheResetState := by
  intro s hr hc
  refine ⟨_, exec_reset_live hr, ?_, rfl⟩
  rw [State.reset, ← hc, ← hr]
  rfl

theorem built_legal : Config.built.legal := ⟨by decide, by decide⟩

/-- Settles O49: power-on is a reset state with legal parameters, an empty buffer and an empty trace. -/
theorem powerOnMeetsTheInvariants : Obligations.PowerOnMeetsTheInvariants :=
  ⟨State.resetRegisters_inv (s := State.reset) built_legal, .of_idx_zero rfl, fun p => by cases p <;> rfl⟩

/-! ### What the invariant says of the status -/

/-- Settles O48: IDX is below N_SAMPLES in CAPTURE and equal to it in REPORT. -/
theorem fullIsTheReportPhase : Obligations.FullIsTheReportPhase := by
  intro s h
  rw [State.full, decide_eq_true_iff]
  cases hp : s.sphase with
  | capture =>
    obtain ⟨hi, -, -⟩ := h.sampler.capture hp
    simp [Nat.ne_of_lt hi]
  | report =>
    obtain ⟨hi, -⟩ := h.sampler.report hp
    simp [hi]

theorem State.txData_capture {s : State} (hp : s.sphase = .capture) : s.txData = none := by
  simp only [State.txData, hp]

theorem State.txData_report {s : State} {a : AccWord} (hp : s.sphase = .report) (ha : s.acc = some a) :
    s.txData = some (reportByte a s.txk.val) := by
  simp only [State.txData, hp, ha, Option.map_some]

/-- Settles O36: in REPORT the invariant gives ACC a value, whose byte is offered and taken; in CAPTURE none is. -/
theorem offeredByteIsTheOneTaken : Obligations.OfferedByteIsTheOneTaken := by
  intro s h
  refine ⟨decide_eq_true_iff, ?_⟩
  cases hp : s.sphase with
  | capture => simp [State.txData_capture hp]
  | report =>
    obtain ⟨a, ha⟩ := h.sampler.acc_of_report hp
    rw [State.txData_report hp ha]
    refine ⟨by simp, fun b hr hb => ⟨_, exec_txack_report hr hp ha, ?_⟩⟩
    cases hb
    rw [State.afterByte_trace, State.emit_trace]

/-! ### Two display events -/

/-- Settles O20: the second WRDISP writes the value that stands there, and no RDENT changes ENTROPY. -/
theorem hostAccessesAreIdempotent : Obligations.HostAccessesAreIdempotent := by
  refine ⟨fun v s => ?write, fun s hr => ?read⟩
  case write =>
    cases hr : s.refused with
    | none => exact ⟨_, exec_wrdisp_live hr v, exec_wrdisp_live (s := { s with dispval := v }) hr v⟩
    | some r => exact ⟨s, exec_refused hr _, exec_refused hr _⟩
  case read =>
    refine ⟨_, _, exec_rdent_live hr, exec_rdent_live (s := s.emit (.rd s.entropyOut)) hr, ?_⟩
    rw [State.emit_trace, State.emit_trace, List.append_assoc]
    rfl

/-- Settles O25: the first tick stores LEFT's pattern of the old value, which the second one, for RIGHT, keeps. -/
theorem writeBetweenTicksTearsTheDisplay : Obligations.WriteBetweenTicksTearsTheDisplay := by
  intro s w hr hpos
  have hr' : s.muxTick.refused = none := by rw [State.muxTick_refused, hr]
  have hleft : s.muxTick.pos = .left := by rw [State.muxTick_pos, hpos]; rfl
  refine ⟨_, { s.muxTick with dispval := w }, _, exec_muxtick_live hr, exec_wrdisp_live hr' w, exec_muxtick_live hr',
    ?old, ?new⟩
  case old =>
    have hkept := State.muxTick_pattern_kept { s.muxTick with dispval := w }
    have hstored := s.muxTick_pattern_serviced
    rw [hpos] at hstored
    rw [show State.pos { s.muxTick with dispval := w } = .left from hleft] at hkept
    exact hkept.trans hstored
  case new =>
    have hstored := State.muxTick_pattern_serviced { s.muxTick with dispval := w }
    rw [show State.pos { s.muxTick with dispval := w } = .left from hleft] at hstored
    exact hstored.trans (by rw [State.muxTick_cfg]; rfl)

/-! ### The patterns of a legal SEG_TABLE -/

theorem segEncode_num_mem (c : Params) {d : Nat} (h : d < 10) : segEncode c (.num d) ∈ c.segTable.toList := by
  rw [segEncode_num_of_lt c h, Vector.mem_toList_iff]
  exact Vector.getElem_mem h

/-- Distinct digits have distinct patterns (R101 (a)). -/
theorem segEncode_num_inj {c : Params} (hc : c.segTableLegal) {d e : Nat} (hd : d < 10) (he : e < 10)
    (h : segEncode c (.num d) = segEncode c (.num e)) : d = e := by
  have hlength : c.segTable.toList.length = 10 := c.segTable.length_toList
  rw [segEncode_num_of_lt c hd, segEncode_num_of_lt c he] at h
  exact (hc.1.getElem_inj_iff (hi := by omega) (hj := by omega)).1 (by simpa using h)

/-- No digit is blank (R101 (b)). -/
theorem segEncode_num_ne_blank {c : Params} (hc : c.segTableLegal) {d : Nat} (hd : d < 10) :
    segEncode c (.num d) ≠ 0x00 := fun h => by
  have hmem := segEncode_num_mem c hd
  rw [h] at hmem
  exact hc.2 hmem

/-- Settles O23: the two digits make the value, and each is told apart by its pattern. -/
theorem patternsTellValuesApart : Obligations.PatternsTellValuesApart := by
  refine fun c hc => ⟨fun v w hv hw hL hR => ?apart, fun v pos => ⟨fun h => ?blank, fun h => segPattern_of_ge c h pos⟩⟩
  case apart =>
    rw [segPattern, segPattern, digitOf_left_of_le hv, digitOf_left_of_le hw] at hL
    rw [segPattern, segPattern, digitOf_right_of_le hv, digitOf_right_of_le hw] at hR
    have htens := segEncode_num_inj hc (by omega) (by omega) hL
    have hunits := segEncode_num_inj hc (Nat.mod_lt _ (by decide)) (Nat.mod_lt _ (by decide)) hR
    exact BitVec.eq_of_toNat_eq (by omega)
  case blank =>
    by_contra hlt
    have hv : v.toNat ≤ 99 := by omega
    cases pos with
    | left =>
      rw [segPattern, digitOf_left_of_le hv] at h
      exact segEncode_num_ne_blank hc (by omega) h
    | right =>
      rw [segPattern, digitOf_right_of_le hv] at h
      exact segEncode_num_ne_blank hc (by omega) h

end Sys2Proof.Machine
end

section
/-! PROOFS. The independence of the display's and the sampler's events (10_state.md R47) and their commutation
(60_exceptions.md R207). The layer below says that each kind of event is determined by the fields of its own half: given
them, it does the same to any state, whatever the rest of that state holds. -/

namespace Sys2Proof.Machine

/-! ### The fields an event is determined by -/

/-- `u` with what a sampler event reads taken from `s`: the sampler's fields, REFUSED and the parameters. -/
def State.withSamplerOf (u s : State) : State :=
  { u.withSampler s.sphase s.armed s.idx s.buf s.acc s.txk s.irmon with refused := s.refused, cfg := s.cfg }

/-- `u` with what a display event reads taken from `s`: DISPVAL, the display's fields, REFUSED and the parameters. -/
def State.withDisplayOf (u s : State) : State :=
  { u with
    dispval := s.dispval, pos := s.pos, patL := s.patL, patR := s.patR, entropy := s.entropy, selL := s.selL,
    selR := s.selR, sdata := s.sdata, sclk := s.sclk, latch := s.latch, refused := s.refused, cfg := s.cfg }

/-- `u` with `items` appended to its trace. -/
def State.emitAll (u : State) (items : List Item) : State := { u with trace := u.trace ++ items }

theorem State.emitAll_nil (u : State) : u.emitAll [] = u := by
  rw [State.emitAll, List.append_nil]

theorem State.withSamplerOf_eq_self {u s : State} (h : s.sameSampler u) (hr : u.refused = s.refused)
    (hc : u.cfg = s.cfg) : u.withSamplerOf s = u := by
  obtain ⟨hsphase, harmed, hidx, hbuf, hacc, htxk, hirmon⟩ := h
  rw [State.withSamplerOf, ← hsphase, ← harmed, ← hidx, ← hbuf, ← hacc, ← htxk, ← hirmon, ← hr, ← hc]
  rfl

theorem State.withDisplayOf_eq_self {u s : State} (hv : u.dispval = s.dispval) (h : s.sameDisplay u)
    (hr : u.refused = s.refused) (hc : u.cfg = s.cfg) : u.withDisplayOf s = u := by
  obtain ⟨hpos, hpatL, hpatR, hentropy, hselL, hselR, hsdata, hsclk, hlatch⟩ := h
  rw [State.withDisplayOf, ← hv, ← hpos, ← hpatL, ← hpatR, ← hentropy, ← hselL, ← hselR, ← hsdata, ← hsclk, ← hlatch,
    ← hr, ← hc]

/-! ### Sampler events -/

theorem State.storeSample_armOn_pinWrite {s : State} {b : Bit} (ha : s.armed = true ∨ b = true) :
    ((s.pinWrite .irmon b).armOn b).storeSample b = s.storedTick b := by
  rw [State.armOn_eq (s := s.pinWrite .irmon b) ha]
  rfl

/-- A SAMPTICK does to every state with the same sampler's fields, REFUSED and parameters the same. -/
theorem execSamptick_withSamplerOf {l : Bit} {s t : State} (h : execSamptick l s = .next t) :
    ∃ items, ∀ u : State, exec (.samptick l) (u.withSamplerOf s) = .next ((u.withSamplerOf t).emitAll items) := by
  rcases execSamptick_next h with ⟨hidle, rfl⟩ | ⟨hr, hp, b, rfl, hmirror | hfull | hstore | hfill⟩
  · refine ⟨[], fun u => ?_⟩
    rw [State.emitAll_nil]
    rcases hidle with hr | hp
    · obtain ⟨r, hr⟩ := Option.ne_none_iff_exists'.1 hr
      exact exec_refused (s := u.withSamplerOf t) hr _
    · exact exec_samptick_report (s := u.withSamplerOf t) hp l
  · obtain ⟨ha, rfl⟩ := hmirror
    obtain ⟨harmed, hb⟩ := Bool.or_eq_false_iff.1 ha
    refine ⟨[.pin .irmon false], fun u => ?_⟩
    rw [hb]
    exact exec_samptick_mirror (s := u.withSamplerOf s) hr hp harmed hb
  · obtain ⟨-, hi, rfl⟩ := hfull
    refine ⟨[.pin .irmon (sampleBit s.cfg l)], fun u =>
      (exec_samptick_full (s := u.withSamplerOf s) hr hp rfl hi).trans ?_⟩
    rw [State.armOn_eq_or, State.armOn_eq_or]
    rfl
  · obtain ⟨ha, hi, hne, rfl⟩ := hstore
    have harm := Bool.or_eq_true_iff.1 ha
    refine ⟨[.pin .irmon (sampleBit s.cfg l)], fun u => ?_⟩
    rw [State.storeSample_armOn_pinWrite harm]
    exact exec_samptick_stored (s := u.withSamplerOf s) hr hp rfl harm (Nat.lt_of_le_of_ne hi hne)
  · obtain ⟨ha, hi, B, hB, rfl⟩ := hfill
    have harm := Bool.or_eq_true_iff.1 ha
    refine ⟨[.pin .irmon (sampleBit s.cfg l)], fun u => ?_⟩
    rw [State.storeSample_armOn_pinWrite harm]
    exact exec_samptick_filling (s := u.withSamplerOf s) hr hp rfl harm hi hB

/-- A TXACK does to every state with the same sampler's fields, REFUSED and parameters the same. -/
theorem execTxack_withSamplerOf {s t : State} (h : execTxack s = .next t) :
    ∃ items, ∀ u : State, exec .txack (u.withSamplerOf s) = .next ((u.withSamplerOf t).emitAll items) := by
  rcases execTxack_next h with ⟨hr, rfl⟩ | ⟨hr, hp, rfl⟩ | ⟨hr, hp, a, ha, rfl⟩
  · refine ⟨[], fun u => ?_⟩
    obtain ⟨r, hr⟩ := Option.ne_none_iff_exists'.1 hr
    rw [State.emitAll_nil]
    exact exec_refused (s := u.withSamplerOf t) hr _
  · refine ⟨[], fun u => ?_⟩
    rw [State.emitAll_nil]
    exact exec_txack_capture (s := u.withSamplerOf s) hr hp
  · refine ⟨[.tx (reportByte a s.txk.val)], fun u => (exec_txack_report (s := u.withSamplerOf s) hr hp ha).trans ?_⟩
    by_cases hk : s.txk = 4
    · rw [State.afterByte_last (s := s.emit _) hk, State.afterByte_last (s := (u.withSamplerOf s).emit _) hk]
      rfl
    · rw [State.afterByte_more (s := s.emit _) hk, State.afterByte_more (s := (u.withSamplerOf s).emit _) hk]
      rfl

theorem exec_withSamplerOf {e : Instr} {s t : State} (he : e.agent = .samptimer ∨ e.agent = .serial)
    (h : exec e s = .next t) :
    ∃ items, ∀ u : State, exec e (u.withSamplerOf s) = .next ((u.withSamplerOf t).emitAll items) := by
  cases e with
  | wrdisp v => simp [Instr.agent] at he
  | muxtick => simp [Instr.agent] at he
  | samptick l => exact execSamptick_withSamplerOf h
  | txack => exact execTxack_withSamplerOf h
  | rdent => simp [Instr.agent] at he
  | reset => simp [Instr.agent] at he

/-- The items of a sampler event are the ones it appends to the state itself. -/
theorem trace_eq_of_withSamplerOf {e : Instr} {s t : State} {items : List Item} (h : exec e s = .next t)
    (hall : ∀ u : State, exec e (u.withSamplerOf s) = .next ((u.withSamplerOf t).emitAll items)) :
    t.trace = s.trace ++ items :=
  congrArg State.trace (Host.Outcome.next.inj (h.symm.trans (hall s)))

/-- A sampler event leaves DISPVAL. -/
theorem exec_sampler_dispval {e : Instr} {s t : State} (he : e.agent = .samptimer ∨ e.agent = .serial)
    (h : exec e s = .next t) : t.dispval = s.dispval :=
  exec_dispval_eq (by rintro v rfl; simp [Instr.agent] at he) (by rintro rfl; simp [Instr.agent] at he) h

/-- A sampler event leaves the display's fields. -/
theorem exec_sampler_sameDisplay {e : Instr} {s t : State} (he : e.agent = .samptimer ∨ e.agent = .serial)
    (h : exec e s = .next t) : s.sameDisplay t :=
  exec_sameDisplay (by rintro rfl; simp [Instr.agent] at he) (by rintro rfl; simp [Instr.agent] at he) h

/-- Settles O27: a sampler event does the same to the state with other display fields. -/
theorem samplerIgnoresTheDisplay : Obligations.SamplerIgnoresTheDisplay := by
  intro i s t dv po pl pr en sl sr sd sc la hi h
  obtain ⟨items, hall⟩ := exec_withSamplerOf hi h
  refine ⟨exec_sampler_dispval hi h, exec_sampler_sameDisplay hi h, ?_⟩
  have hother := hall { s with dispval := dv, pos := po, patL := pl, patR := pr, entropy := en, selL := sl, selR := sr,
                               sdata := sd, sclk := sc, latch := la }
  rw [trace_eq_of_withSamplerOf h hall, exec_events_eq h]
  exact hother

/-! ### Display events -/

/-- A display event does to every state with the same DISPVAL, display fields, REFUSED and parameters the same. -/
theorem exec_withDisplayOf {d : Instr} {s t : State} (hd : d.agent = .host ∨ d.agent = .muxtimer)
    (h : exec d s = .next t) :
    ∃ items, ∀ u : State, exec d (u.withDisplayOf s) = .next ((u.withDisplayOf t).emitAll items) := by
  cases hr : s.refused with
  | some r =>
    cases (exec_refused hr d).symm.trans h
    exact ⟨[], fun u => by rw [State.emitAll_nil]; exact exec_refused (s := u.withDisplayOf s) hr d⟩
  | none =>
    cases d with
    | wrdisp v =>
      cases (exec_wrdisp_live hr v).symm.trans h
      exact ⟨[], fun u => by rw [State.emitAll_nil]; exact exec_wrdisp_live (s := u.withDisplayOf s) hr v⟩
    | muxtick =>
      rw [exec_muxtick_next_live hr h]
      refine ⟨tickItems s.cfg s.pos.other (segPattern s.cfg s.dispval s.pos.other), fun u =>
        (exec_muxtick_live (s := u.withDisplayOf s) hr).trans ?_⟩
      rw [State.muxTick_eq, State.muxTick_eq]
      rfl
    | rdent =>
      cases (exec_rdent_live hr).symm.trans h
      exact ⟨[.rd s.entropy], fun u => exec_rdent_live (s := u.withDisplayOf s) hr⟩
    | samptick l => simp [Instr.agent] at hd
    | txack => simp [Instr.agent] at hd
    | reset => simp [Instr.agent] at hd

/-- The items of a display event are the ones it appends to the state itself. -/
theorem trace_eq_of_withDisplayOf {d : Instr} {s t : State} {items : List Item} (h : exec d s = .next t)
    (hall : ∀ u : State, exec d (u.withDisplayOf s) = .next ((u.withDisplayOf t).emitAll items)) :
    t.trace = s.trace ++ items :=
  congrArg State.trace (Host.Outcome.next.inj (h.symm.trans (hall s)))

/-! ### Commutation -/

/-- A display event leaves REFUSED, and so does a sampler event whose TXACK is offered a byte. -/
theorem exec_refused_eq {i : Instr} {s t : State} (hx : i = .txack → s.sphase ≠ .capture) (h : exec i s = .next t) :
    t.refused = s.refused := by
  rcases exec_refused_eq_or_txack_idle h with hkeep | ⟨hi, hp, -⟩
  · exact hkeep
  · exact absurd hp (hx hi)

/-- A display event `d` and a sampler event `e` that both leave REFUSED commute: each does to the other's result what it
did to `s`, so the fields agree and the items of the one come before or after those of the other. -/
theorem exec_commute {d e : Instr} {s sd se : State} (hd : d.agent = .host ∨ d.agent = .muxtimer)
    (he : e.agent = .samptimer ∨ e.agent = .serial) (hsd : exec d s = .next sd) (hse : exec e s = .next se)
    (hrd : sd.refused = s.refused) (hre : se.refused = s.refused) :
    ∃ sde sed, exec e sd = .next sde ∧ exec d se = .next sed ∧
      { sde with trace := [] } = { sed with trace := [] } ∧ sde.trace.Perm sed.trace := by
  have hcd := eventsKeepParameters d s sd hsd
  have hce := eventsKeepParameters e s se hse
  obtain ⟨ditems, hdall⟩ := exec_withDisplayOf hd hsd
  obtain ⟨eitems, heall⟩ := exec_withSamplerOf he hse
  have hsampler : sd.withSamplerOf s = sd := State.withSamplerOf_eq_self (exec_sameSampler hd hsd) hrd hcd
  have hdisplay : se.withDisplayOf s = se :=
    State.withDisplayOf_eq_self (exec_sampler_dispval he hse) (exec_sampler_sameDisplay he hse) hre hce
  refine ⟨(sd.withSamplerOf se).emitAll eitems, (se.withDisplayOf sd).emitAll ditems, hsampler ▸ heall sd,
    hdisplay ▸ hdall se, ?fields, ?trace⟩
  case fields =>
    simp only [State.emitAll, State.withSamplerOf, State.withDisplayOf, State.withSampler, hrd, hre, hcd, hce,
      exec_events_eq hsd, exec_events_eq hse]
  case trace =>
    change (sd.trace ++ eitems).Perm (se.trace ++ ditems)
    rw [trace_eq_of_withDisplayOf hsd hdall, trace_eq_of_withSamplerOf hse heall, List.append_assoc, List.append_assoc]
    exact List.perm_append_comm.append_left s.trace

/-- Settles O47: under the invariant both events answer a next state and leave REFUSED, so they commute. -/
theorem displayAndSamplerEventsCommute : Obligations.DisplayAndSamplerEventsCommute := by
  refine ⟨fun d e s hinv hr hd he => ?commute, fun v s hr => ?host⟩
  case commute =>
    obtain ⟨sd, hsd, -⟩ := hinv.exec d
    obtain ⟨se, hse, -⟩ := hinv.exec e
    have hdx : d = .txack → s.sphase ≠ .capture := by
      rintro rfl
      simp [Instr.agent] at hd
    have hex : e = .txack → s.sphase ≠ .capture := by
      rintro rfl
      rcases he with he | ⟨-, hp⟩
      · simp [Instr.agent] at he
      · simp [hp]
    obtain ⟨sde, sed, hsde, hsed, hfields, htrace⟩ := exec_commute hd (he.imp_right And.left) hsd hse
      (exec_refused_eq hdx hsd) (exec_refused_eq hex hse)
    exact ⟨sd, sde, se, sed, hsd, hsde, hse, hsed, hfields, htrace⟩
  case host =>
    exact ⟨_, _, _, _, exec_wrdisp_live hr v, exec_rdent_live (s := { s with dispval := v }) hr, exec_rdent_live hr,
      exec_wrdisp_live (s := s.emit (.rd s.entropyOut)) hr v, rfl⟩

end Sys2Proof.Machine
end

section
/-! PROOFS. The duration decoder (43_duration_decoder.md): the closed form (R174), the round trip (R182, R183), the
first sample (R175) and the number of decoded bits (R177). The layer below follows one quantity through the scan: the
value that ACC would take at the next rising edge, which every mark and space doubles and adds its bit to. -/

namespace Sys2Proof.Machine

/-! ### The value of a bit string -/

/-- The number that a bit string spells, its first bit the most significant. -/
def bitsValue (P : List Bit) : Nat := P.foldl (fun v p => 2 * v + p.toNat) 0

/-- The bits of the mark and space pairs (R171). -/
def runBits (tol : Nat) (runs : List (Nat × Nat)) : List Bit := runs.map fun r => pairBit tol r.1 r.2

/-- Shifting a bit in puts it behind the other bits and drops the ones above bit 63 (R173). -/
theorem shiftIn_eq_setWidth_concat (a : AccWord) (b : Bit) : shiftIn a b = (a.concat b).setWidth 64 := by
  unfold shiftIn
  ext i hi
  cases i with
  | zero => simp
  | succ i => simp [BitVec.getLsbD_eq_getElem (Nat.lt_of_succ_lt hi)]

theorem shiftIn_toNat (a : AccWord) (b : Bit) : (shiftIn a b).toNat = (2 * a.toNat + b.toNat) % 2 ^ 64 := by
  rw [shiftIn_eq_setWidth_concat, BitVec.toNat_setWidth, BitVec.toNat_concat, Nat.mul_comm]

theorem shiftIn_ofNat (v : Nat) (b : Bit) : shiftIn (BitVec.ofNat 64 v) b = BitVec.ofNat 64 (2 * v + b.toNat) := by
  apply BitVec.eq_of_toNat_eq
  rw [shiftIn_toNat, BitVec.toNat_ofNat, BitVec.toNat_ofNat]
  omega

theorem foldl_shiftIn_ofNat (v : Nat) (P : List Bit) :
    P.foldl shiftIn (BitVec.ofNat 64 v) = BitVec.ofNat 64 (P.foldl (fun v p => 2 * v + p.toNat) v) := by
  induction P generalizing v with
  | nil => rfl
  | cons p P ih => rw [List.foldl_cons, shiftIn_ofNat, ih, List.foldl_cons]

/-- Bits after a value `v` shift it left by their number. -/
theorem foldl_double_eq (v : Nat) (P : List Bit) :
    P.foldl (fun v p => 2 * v + p.toNat) v = v * 2 ^ P.length + bitsValue P := by
  unfold bitsValue
  induction P generalizing v with
  | nil => simp
  | cons p P ih =>
    rw [List.foldl_cons, List.foldl_cons, ih, ih (2 * 0 + p.toNat), List.length_cons, Nat.pow_succ]
    ring

theorem bitsValue_cons (p : Bit) (P : List Bit) : bitsValue (p :: P) = p.toNat * 2 ^ P.length + bitsValue P := by
  rw [bitsValue, List.foldl_cons, foldl_double_eq, Nat.mul_zero, Nat.zero_add]

theorem bitsValue_lt (P : List Bit) : bitsValue P < 2 ^ P.length := by
  induction P with
  | nil => exact Nat.one_pos
  | cons p P ih =>
    have hp : p.toNat * 2 ^ P.length ≤ 2 ^ P.length :=
      (Nat.mul_le_mul_right _ (Bool.toNat_le p)).trans_eq (Nat.one_mul _)
    rw [bitsValue_cons, List.length_cons, Nat.pow_succ]
    omega

/-- The sum of R174, for a list of pairs. -/
theorem bitsValue_runBits (tol : Nat) (runs : List (Nat × Nat)) :
    bitsValue (runBits tol runs) =
      ∑ j : Fin runs.length, (if runs[j].1 > runs[j].2 + tol then 1 else 0) * 2 ^ (runs.length - 1 - j.val) := by
  induction runs with
  | nil => rfl
  | cons r runs ih =>
    have hbit : (pairBit tol r.1 r.2).toNat = if r.1 > r.2 + tol then 1 else 0 := by
      unfold pairBit
      split_ifs with h <;> simp [h]
    have hlength : (runBits tol runs).length = runs.length := List.length_map _
    rw [runBits, List.map_cons, bitsValue_cons, ← runBits, ih, hbit, hlength]
    refine Eq.trans ?_ (Fin.sum_univ_succ (n := runs.length) _).symm
    refine congrArg₂ (· + ·) rfl (Finset.sum_congr rfl fun j _ => ?_)
    have hexp : runs.length - 1 - j.val = (r :: runs).length - 1 - j.succ.val := by
      rw [List.length_cons, Fin.val_succ]
      omega
    rw [hexp]
    rfl

/-! ### The scan of a buffer -/

/-- The value ACC takes at the next rising edge. -/
def Scan.closed (tol : Nat) (r : Scan) : AccWord := shiftIn r.acc (pairBit tol r.mark r.space)

/-- A mark and a space shift the bit of their own pair in, at the edge after them (R171 to R173). -/
theorem scanSamples_runs {r : Scan} (hp : r.prev = false) (tol : Nat) {runs : List (Nat × Nat)}
    (hruns : ∀ x ∈ runs, 1 ≤ x.1 ∧ 1 ≤ x.2) :
    (scanSamples tol r (runs.flatMap fun x => markSpace x.1 x.2)).prev = false ∧
      (scanSamples tol r (runs.flatMap fun x => markSpace x.1 x.2)).closed tol =
        (runBits tol runs).foldl shiftIn (r.closed tol) := by
  induction runs generalizing r with
  | nil => exact ⟨hp, rfl⟩
  | cons x runs ih =>
    obtain ⟨⟨hmark, hspace⟩, hrest⟩ := List.forall_mem_cons.1 hruns
    rw [List.flatMap_cons, scanSamples_append, scanSamples_markSpace hp hmark hspace]
    exact ih rfl hrest

/-- Zeros, none or more, leave ACC. -/
theorem scanSamples_replicate_false_acc (tol k : Nat) (r : Scan) :
    (scanSamples tol r (List.replicate k false)).acc = r.acc := by
  cases k with
  | zero => rfl
  | succ k => rw [scanSamples_replicate_false (Nat.succ_pos k)]

/-- A leading space decodes to nothing, and its pair with the absent mark to 0 (R177). -/
theorem scanSamples_lead (tol lead : Nat) :
    (scanSamples tol Scan.init (List.replicate lead false)).prev = false ∧
      (scanSamples tol Scan.init (List.replicate lead false)).closed tol = 0 := by
  cases lead with
  | zero =>
    refine ⟨rfl, ?_⟩
    change shiftIn 0 (pairBit tol 0 0) = 0
    rw [pairBit_mark_zero, shiftIn_zero, if_neg Bool.false_ne_true]
  | succ k =>
    rw [scanSamples_replicate_false (Nat.succ_pos k)]
    refine ⟨rfl, ?_⟩
    change shiftIn 0 (pairBit tol 0 _) = 0
    rw [pairBit_mark_zero, shiftIn_zero, if_neg Bool.false_ne_true]

/-- The decode of a leading space, runs, a last mark and a trailing space is the value of the runs' bits (R174). -/
theorem decodeSamples_runs (tol lead trail : Nat) {last : Nat} {runs : List (Nat × Nat)} (hlast : 1 ≤ last)
    (hruns : ∀ r ∈ runs, 1 ≤ r.1 ∧ 1 ≤ r.2) :
    decodeSamples tol (List.replicate lead false ++ runs.flatMap (fun r => markSpace r.1 r.2) ++ markSpace last trail) =
      BitVec.ofNat 64 (bitsValue (runBits tol runs)) := by
  obtain ⟨hlead, hzero⟩ := scanSamples_lead tol lead
  obtain ⟨hprev, hclosed⟩ := scanSamples_runs hlead tol hruns
  have hmark := scanSamples_mark hprev hlast tol
  rw [decodeSamples, markSpace, ← List.append_assoc, scanSamples_append, scanSamples_replicate_false_acc,
    scanSamples_append, scanSamples_append, hmark]
  exact hclosed.trans (by rw [hzero]; exact foldl_shiftIn_ofNat 0 _)

/-- Settles O40: the value of the runs' bits is the sum of R174. -/
theorem decodeHasTheClosedForm : Obligations.DecodeHasTheClosedForm := by
  intro tol lead last trail runs hlast hruns
  refine ⟨?_, scanSamples_replicate_false_acc tol lead Scan.init⟩
  rw [decodeSamples_runs tol lead trail hlast hruns, bitsValue_runBits]

/-! ### The round trip -/

/-- Runs that encode the bits `P` have these bits. -/
theorem runBits_of_forall₂ {tol : Nat} {P : List Bit} {runs : List (Nat × Nat)}
    (h : List.Forall₂ (fun p r => 1 ≤ r.1 ∧ 1 ≤ r.2 ∧ (p = true ↔ r.1 > r.2 + tol)) P runs) :
    runBits tol runs = P ∧ ∀ r ∈ runs, 1 ≤ r.1 ∧ 1 ≤ r.2 := by
  induction h with
  | nil => exact ⟨rfl, nofun⟩
  | @cons p r P runs hr _ ih =>
    obtain ⟨hmark, hspace, hbit⟩ := hr
    obtain ⟨hbits, hruns⟩ := ih
    have hp : pairBit tol r.1 r.2 = p := by
      rw [pairBit, Bool.eq_iff_iff, decide_eq_true_iff, hbit]
    exact ⟨by rw [runBits, List.map_cons, hp, ← runBits, hbits], List.forall_mem_cons.2 ⟨⟨hmark, hspace⟩, hruns⟩⟩

/-- The five report bytes joined, the last one sent the most significant, are ACC[39:0] (20_memory.md R54). -/
theorem reportBytes_joined (a : AccWord) :
    (reportByte a 4 ++ reportByte a 3 ++ reportByte a 2 ++ reportByte a 1 ++ reportByte a 0 : BitVec 40).toNat =
      a.toNat % 2 ^ 40 := by
  have hjoined : reportByte a 4 ++ reportByte a 3 ++ reportByte a 2 ++ reportByte a 1 ++ reportByte a 0 =
      a.setWidth 40 := by
    unfold reportByte
    rw [BitVec.extractLsb'_append_extractLsb'_eq_extractLsb', BitVec.extractLsb'_append_extractLsb'_eq_extractLsb',
      BitVec.extractLsb'_append_extractLsb'_eq_extractLsb', BitVec.extractLsb'_append_extractLsb'_eq_extractLsb',
      BitVec.setWidth_eq_extractLsb' (by decide)] <;> rfl
  rw [hjoined, BitVec.toNat_setWidth]

/-- Settles O41: the runs' bits are `P`, whose value fits ACC. -/
theorem roundTripOfUpTo64Bits : Obligations.RoundTripOfUpTo64Bits := by
  intro tol n P runs last zeros B hP hruns hlast hB _
  obtain ⟨hbits, hpositive⟩ := runBits_of_forall₂ hruns
  have hdecode : decodeSamples tol B = BitVec.ofNat 64 (bitsValue P) := by
    rw [← hbits, ← decodeSamples_runs tol 0 zeros hlast hpositive, hB, List.append_assoc]
    rfl
  have hfits : bitsValue P < 2 ^ 64 := (bitsValue_lt P).trans_le (Nat.pow_le_pow_right (by decide) hP)
  have hvalue : (decodeSamples tol B).toNat = bitsValue P := by
    rw [hdecode, BitVec.toNat_ofNat, Nat.mod_eq_of_lt hfits]
  exact ⟨hvalue, by rw [reportBytes_joined, hvalue]; rfl⟩

/-! ### The first sample -/

/-- Settles O42: after the first sample both scans are in the same state, since the bit of the absent pair is 0. -/
theorem startingSampleIsUnobservable : Obligations.StartingSampleIsUnobservable := by
  intro tol b B
  have hfirst : Scan.step tol { Scan.init with prev := b } b = Scan.init.step tol b := by
    cases b with
    | false => rfl
    | true =>
      rw [Scan.step_true_of_mark rfl, Scan.step_true_of_space rfl]
      change _ = ({ prev := true, mark := 1, space := 0, acc := shiftIn 0 (pairBit tol 0 0) } : Scan)
      rw [pairBit_mark_zero, shiftIn_zero, if_neg Bool.false_ne_true]
      rfl
  rw [decodeSamples, scanSamples_cons, scanSamples_cons, hfirst]

/-! ### The number of decoded bits -/

/-- Edges need a sample of each level, so there are at most half as many as samples, rounded up after a 0. -/
theorem risingEdges_le (B : List Bit) :
    risingEdges false B ≤ (B.length + 1) / 2 ∧ risingEdges true B ≤ B.length / 2 := by
  induction B with
  | nil => exact ⟨Nat.zero_le _, Nat.le_refl _⟩
  | cons b B ih =>
    obtain ⟨hfalse, htrue⟩ := ih
    cases b with
    | false =>
      have hnone (prev : Bit) : risingEdges prev (false :: B) = risingEdges false B := by simp [risingEdges]
      rw [hnone, hnone, List.length_cons]
      omega
    | true =>
      have hedge : risingEdges false (true :: B) = 1 + risingEdges true B := by simp [risingEdges]
      have hmark : risingEdges true (true :: B) = risingEdges true B := by simp [risingEdges]
      rw [hedge, hmark, List.length_cons]
      omega

theorem shiftIn_lt {a : AccWord} {k : Nat} (ha : a.toNat < 2 ^ k) (b : Bit) : (shiftIn a b).toNat < 2 ^ (k + 1) := by
  have hb := Bool.toNat_le b
  calc (shiftIn a b).toNat
    _ ≤ 2 * a.toNat + b.toNat := by rw [shiftIn_toNat]; exact Nat.mod_le _ _
    _ < 2 ^ (k + 1) := by rw [Nat.pow_succ]; omega

/-- Each rising edge lengthens the value by one bit (R173). -/
theorem scanSamples_lt {tol k : Nat} {r : Scan} (hr : r.acc.toNat < 2 ^ k) (B : List Bit) :
    (scanSamples tol r B).acc.toNat < 2 ^ (k + risingEdges r.prev B) := by
  induction B generalizing r k with
  | nil => exact hr
  | cons b B ih =>
    rw [scanSamples_cons]
    cases b with
    | false => simpa [Scan.step_false, risingEdges] using ih (r := r.step tol false) (by rwa [Scan.step_false])
    | true =>
      cases hp : r.prev with
      | true =>
        have hkeep : (r.step tol true).acc.toNat < 2 ^ k := by rwa [Scan.step_true_of_mark hp]
        simpa [Scan.step_true_of_mark hp, risingEdges, hp] using ih hkeep
      | false =>
        have hlonger : (r.step tol true).acc.toNat < 2 ^ (k + 1) := by
          rw [Scan.step_true_of_space hp]
          exact shiftIn_lt hr _
        simpa [Scan.step_true_of_space hp, risingEdges, Nat.add_assoc] using ih hlonger

/-- Before the first mark the first edge decodes to 0, so the value has a bit less than there are edges (R177). -/
theorem scanSamples_lt_of_no_mark {tol : Nat} {r : Scan} (hp : r.prev = false) (hm : r.mark = 0) (ha : r.acc = 0)
    (B : List Bit) : (scanSamples tol r B).acc.toNat < 2 ^ (risingEdges false B - 1) := by
  induction B generalizing r with
  | nil => simp [scanSamples, ha]
  | cons b B ih =>
    rw [scanSamples_cons]
    cases b with
    | false =>
      rw [Scan.step_false]
      simpa [risingEdges] using ih (r := { r with space := r.space + 1, prev := false }) rfl hm ha
    | true =>
      have hzero : (r.step tol true).acc.toNat < 2 ^ 0 := by
        rw [Scan.step_true_of_space hp, hm, ha, pairBit_mark_zero, shiftIn_zero, if_neg Bool.false_ne_true]
        decide
      have hprev : (r.step tol true).prev = true := by rw [Scan.step_true_of_space hp]
      simpa [hprev, risingEdges] using scanSamples_lt hzero B

/-- Settles O43: the scan starts with no mark. -/
theorem atMostHalfTheSamplesDecode : Obligations.AtMostHalfTheSamplesDecode :=
  fun _ B => ⟨(risingEdges_le B).1, scanSamples_lt_of_no_mark rfl rfl rfl B⟩

end Sys2Proof.Machine
end

section
/-! PROOFS. Runs of several steps: the report of five bytes (20_memory.md R54; 43_duration_decoder.md R178, R179), a
report that waits (R181) and a whole capture (42_pulse_sampler.md R153 to R158). Each is an induction over the steps,
whose step is one event of the layer above. -/

namespace Sys2Proof.Machine

/-! ### The report -/

theorem decodeEvent_txack : decodeEvent 0x4000#16 = .event .txack := (decodeEvent_eq_event_iff_eq_encode _ _).2 rfl

/-- A step that takes byte `k` of a report, before the last one. -/
theorem step_txack_more {s : State} {a : AccWord} {k : Fin reportBytes} {rest : List EventWord} (hr : s.refused = none)
    (hp : s.sphase = .report) (ha : s.acc = some a) (hk : s.txk = k) (hne : k ≠ 4) (h : s.events = 0x4000#16 :: rest) :
    step s = .next { s with txk := k + 1, events := rest, trace := s.trace ++ [.tx (reportByte a k.val)] } := by
  subst hk
  rw [step_event h hr decodeEvent_txack, exec_txack_report (s := { s with events := rest }) hr hp ha]
  exact congrArg _ (State.afterByte_more (s := State.emit _ _) hne)

/-- A step that takes the last byte of a report. -/
theorem step_txack_last {s : State} {a : AccWord} {rest : List EventWord} (hr : s.refused = none)
    (hp : s.sphase = .report) (ha : s.acc = some a) (hk : s.txk = 4) (h : s.events = 0x4000#16 :: rest) :
    step s = .next { s with idx := 0, armed := false, acc := none, txk := 0, sphase := .capture, events := rest,
                            trace := s.trace ++ [.tx (reportByte a s.txk.val)] } := by
  rw [step_event h hr decodeEvent_txack, exec_txack_report (s := { s with events := rest }) hr hp ha]
  exact congrArg _ (State.afterByte_last (s := State.emit _ _) hk)

/-- Settles O37: four steps that move TXK on, and the one that ends the report. -/
theorem fiveTxacksSendTheLowFortyBits : Obligations.FiveTxacksSendTheLowFortyBits := by
  intro s a rest hr hp ha hk hev
  calc core.run 5 s
    _ = core.run 4 _ := run_next (step_txack_more hr hp ha hk (by decide) hev)
    _ = core.run 3 _ := run_next (step_txack_more (k := 1) hr hp ha rfl (by decide) rfl)
    _ = core.run 2 _ := run_next (step_txack_more (k := 2) hr hp ha rfl (by decide) rfl)
    _ = core.run 1 _ := run_next (step_txack_more (k := 3) hr hp ha rfl (by decide) rfl)
    _ = core.run 0 _ := run_next (step_txack_last hr hp ha rfl rfl)
    _ = _ := by
      simp only [List.append_assoc, List.singleton_append]
      rfl

/-! ### A report that waits -/

/-- In REPORT every event but TXACK answers a next state. -/
theorem exists_exec_report {s : State} {i : Instr} (hp : s.sphase = .report) (hx : i ≠ .txack) :
    ∃ t, exec i s = .next t := by
  cases hr : s.refused with
  | some r => exact ⟨s, exec_refused hr i⟩
  | none =>
    cases i with
    | wrdisp v => exact ⟨_, exec_wrdisp_live hr v⟩
    | muxtick => exact ⟨_, exec_muxtick_live hr⟩
    | samptick l => exact ⟨s, exec_samptick_report hp l⟩
    | txack => exact absurd rfl hx
    | rdent => exact ⟨_, exec_rdent_live hr⟩
    | reset => exact ⟨_, exec_reset_live hr⟩

/-- In REPORT a word that is no TXACK and no RESET, reserved or not, leaves the sampler and the queue. -/
theorem applyWord_report {s : State} {w : EventWord} (hp : s.sphase = .report) (hw : w ≠ 0x4000#16 ∧ w ≠ 0xF000#16) :
    ∃ t, applyWord w s = .next t ∧ s.sameSampler t ∧ t.events = s.events := by
  cases hr : s.refused with
  | some r => exact ⟨s, applyWord_refused hr w, s.sameSampler_refl, rfl⟩
  | none =>
    rcases applyWord_live hr w with ⟨i, hi, he⟩ | ⟨r, -, he⟩
    · have hencode := (decodeEvent_eq_event_iff_eq_encode w i).1 hi
      have hx : i ≠ .txack := by
        rintro rfl
        exact hw.1 hencode
      have hreset : i ≠ .reset := by
        rintro rfl
        exact hw.2 hencode
      obtain ⟨t, ht⟩ := exists_exec_report hp hx
      exact ⟨t, he.trans ht, exec_report_sameSampler hx hreset hp ht, exec_events_eq ht⟩
    · exact ⟨_, he, s.sameSampler_refl, rfl⟩

theorem State.sameSampler.trans {s t u : State} (hst : s.sameSampler t) (htu : t.sameSampler u) : s.sameSampler u := by
  obtain ⟨h1, h2, h3, h4, h5, h6, h7⟩ := hst
  obtain ⟨k1, k2, k3, k4, k5, k6, k7⟩ := htu
  exact ⟨k1.trans h1, k2.trans h2, k3.trans h3, k4.trans h4, k5.trans h5, k6.trans h6, k7.trans h7⟩

/-- Settles O38, by induction on the number of steps: each leaves the sampler, REPORT included, and takes at most one
word. -/
theorem unacceptedReportStaysPending : Obligations.UnacceptedReportStaysPending := by
  intro k
  induction k with
  | zero => exact fun s _ _ => ⟨s, run_zero s, s.sameSampler_refl⟩
  | succ k ih =>
    intro s hp hw
    rcases step_of_events s with ⟨-, he⟩ | ⟨w, rest, hev, he⟩
    · rw [run_next he]
      exact ih s hp hw
    · rw [hev] at hw
      obtain ⟨t, ht, hsame, hqueue⟩ :=
        applyWord_report (s := { s with events := rest }) hp (hw w List.mem_cons_self)
      have hsame : s.sameSampler t := hsame
      have hphase : t.sphase = .report := hsame.1.trans hp
      have hwait : ∀ v ∈ t.events, v ≠ 0x4000#16 ∧ v ≠ 0xF000#16 := by
        rw [hqueue]
        exact fun v hv => hw v (List.mem_cons_of_mem w hv)
      obtain ⟨u, hu, hrest⟩ := ih t hphase hwait
      rw [run_next (he.trans ht)]
      exact ⟨u, hu, hsame.trans hrest⟩

/-! ### A whole capture -/

/-- The samples `B` mirrored, armed on and appended one after the other. -/
def State.storedTicks (s : State) (B : List Bit) : State := B.foldl State.storedTick s

/-- What stored samples write: ARMED, IRMON, IDX, BUF and the trace. -/
theorem State.storedTicks_frame (s : State) (B : List Bit) :
    s.storedTicks B =
      { s with armed := (s.storedTicks B).armed, irmon := (s.storedTicks B).irmon, buf := (s.storedTicks B).buf,
               idx := s.idx + B.length, trace := s.trace ++ B.map (Item.pin .irmon) } := by
  induction B generalizing s with
  | nil => simp [State.storedTicks]
  | cons b B ih =>
    have hcons : s.storedTicks (b :: B) = (s.storedTick b).storedTicks B := rfl
    rw [hcons, ih]
    simp [State.storedTick, Nat.add_comm, Nat.add_left_comm]

theorem State.storedTicks_armed {s : State} {B : List Bit} (h : s.armed = true ∨ B ≠ []) :
    (s.storedTicks B).armed = true := by
  induction B generalizing s with
  | nil => exact h.resolve_right fun hne => hne rfl
  | cons b B ih => exact ih (s := s.storedTick b) (.inl rfl)

theorem State.storedTicks_readRange {s : State} {A : List Bit} (hA : s.buf.readRange 0 s.idx = some A) (B : List Bit) :
    (s.storedTicks B).buf.readRange 0 (s.idx + B.length) = some (A ++ B) := by
  induction B generalizing s A with
  | nil => simpa [State.storedTicks] using hA
  | cons b B ih =>
    have hstored := ih (s := s.storedTick b) (Memory.readRange_write b hA)
    have hidx : s.idx + (b :: B).length = (s.storedTick b).idx + B.length := by
      simp only [State.storedTick, List.length_cons]
      omega
    rw [List.append_cons, hidx]
    exact hstored

theorem decodeEvent_sampleWord (c : Params) (b : Bit) :
    ∃ l, decodeEvent (sampleWord c b) = .event (.samptick l) ∧ sampleBit c l = b := by
  refine ⟨_, (decodeEvent_eq_event_iff_eq_encode _ _).2 rfl, ?_⟩
  unfold sampleBit
  cases c.irActiveLow <;> simp

/-- The samples from the first active one on, as many as there are free cells, are stored, and the last begins the
report. -/
theorem run_sampleWords {s : State} {A B : List Bit} {rest : List EventWord} (hr : s.refused = none)
    (hp : s.sphase = .capture) (ha : s.armed = true ∨ B.head? = some true) (hlength : s.idx + B.length = s.cfg.nSamples)
    (hB : B ≠ []) (hA : s.buf.readRange 0 s.idx = some A) (hev : s.events = B.map (sampleWord s.cfg) ++ rest) :
    core.run B.length s =
      .next ((State.storedTicks { s with events := rest } B).beginReport (decodeSamples s.cfg.tol (A ++ B))) := by
  induction B generalizing s A with
  | nil => exact absurd rfl hB
  | cons b B ih =>
    obtain ⟨l, hw, hl⟩ := decodeEvent_sampleWord s.cfg b
    have harm : s.armed = true ∨ b = true := ha.imp_right fun h => by simpa using h
    have hstep := step_event hev hr hw
    rw [List.length_cons] at hlength
    cases B with
    | nil =>
      have hfull : s.idx + 1 = s.cfg.nSamples := hlength
      have hread : (s.buf.write s.idx b).readRange 0 s.cfg.nSamples = some (A ++ [b]) :=
        hfull ▸ Memory.readRange_write b hA
      exact run_next (hstep.trans (exec_samptick_filling (s := { s with events := rest }) hr hp hl harm hfull hread))
    | cons c B =>
      have hfree : s.idx + 1 < s.cfg.nSamples := by
        rw [List.length_cons] at hlength
        omega
      have hstore := exec_samptick_stored (s := { s with events := (c :: B).map (sampleWord s.cfg) ++ rest }) hr hp hl
        harm hfree
      have hrest := ih (s := State.storedTick { s with events := (c :: B).map (sampleWord s.cfg) ++ rest } b) hr hp
        (.inl rfl) (by simp only [State.storedTick]; omega) (List.cons_ne_nil c B) (Memory.readRange_write b hA) rfl
      rw [List.append_cons]
      exact (run_next (hstep.trans hstore)).trans hrest

/-- Settles O54: the run from IDX = 0, where nothing is stored yet. -/
theorem captureDecodesExactlyItsSamples : Obligations.CaptureDecodesExactlyItsSamples := by
  intro s B rest hinv hr hp ha hlength hhead hev
  have hidx := hinv.sampler.unarmed ha
  have hne : B ≠ [] := by
    rintro rfl
    simp at hhead
  have hnone : s.buf.readRange 0 s.idx = some [] := by rw [hidx]; rfl
  have hrun := run_sampleWords hr hp (.inr hhead) (by omega) hne hnone hev
  have hread := State.storedTicks_readRange (s := { s with events := rest }) hnone B
  have harmed := State.storedTicks_armed (s := { s with events := rest }) (.inr hne)
  have hframe := State.storedTicks_frame { s with events := rest } B
  have hfull : s.idx + B.length = s.cfg.nSamples := by omega
  refine ⟨_, hrun, (congrArg State.events hframe :), (congrArg State.refused hframe :).trans hr, rfl, harmed,
    (congrArg State.idx hframe :).trans hfull, hfull ▸ hread, rfl, rfl, (congrArg State.trace hframe :),
    (congrArg State.dispval hframe :), ?_⟩
  rw [hframe]
  exact s.sameDisplay_refl

end Sys2Proof.Machine
end

section
/-! PROOFS. The external display register (41_display_multiplexer.md R129, PRESUMED: log entry 13): what it holds and
shows after a tick's items (R129) and before the LATCH pulse (70_reset_and_hazards.md R225). The layer below says what
the select items, the bit items and the latch items do to it. -/

namespace Sys2Proof.Machine

theorem DisplayRegister.watch_append (d : DisplayRegister) (A B : List Item) :
    d.watch (A ++ B) = (d.watch A).watch B := List.foldl_append

/-- What a position shows is the lit segments or nothing, by its select line. -/
theorem DisplayRegister.shows_eq (d : DisplayRegister) (c : Params) (q : Pos) :
    d.shows c q = if d.selected q = true then d.lit c else 0x00 := rfl

/-! ### The items of a tick, by what they drive -/

/-- The two select items (R122). -/
def selectItems (q : Pos) : List Item := [.pin q.other.selectPin false, .pin q.selectPin true]

/-- The items of the eight bits, the most significant first (R123). -/
def shiftItems (c : Params) (p : Byte) : List Item := shiftOrder.flatMap (bitItems c p)

/-- The two latch items (R124). -/
def latchItems : List Item := [.pin .latch true, .pin .latch false]

theorem tickItems_eq (c : Params) (q : Pos) (p : Byte) :
    tickItems c q p = selectItems q ++ (shiftItems c p ++ latchItems) := rfl

/-! ### The select items -/

/-- The serviced position is selected and the other is not. -/
theorem DisplayRegister.watch_selectItems (d : DisplayRegister) (q : Pos) :
    (d.watch (selectItems q)).selected q = true ∧ (d.watch (selectItems q)).selected q.other = false ∧
      (d.watch (selectItems q)).out = d.out := by
  cases q <;> exact ⟨rfl, rfl, rfl⟩

/-! ### The bit items -/

/-- The shift stage after one bit. -/
def shiftStage (sr : Byte) (b : Bit) : Byte := sr.extractLsb' 0 7 ++ BitVec.ofBool b

/-- A shift moves every bit one up and puts the new one at bit 0. -/
theorem shiftStage_getLsbD_zero (sr : Byte) (b : Bit) : (shiftStage sr b).getLsbD 0 = b :=
  (BitVec.getLsbD_append (x := sr.extractLsb' 0 7) (y := BitVec.ofBool b)).trans (by simp)

theorem shiftStage_getLsbD_succ (sr : Byte) (b : Bit) {i : Nat} (hi : i < 7) :
    (shiftStage sr b).getLsbD (i + 1) = sr.getLsbD i :=
  (BitVec.getLsbD_append (x := sr.extractLsb' 0 7) (y := BitVec.ofBool b)).trans (by simp [hi])

theorem DisplayRegister.watch_bitItems_sr (d : DisplayRegister) (c : Params) (p : Byte) (k : Nat) :
    (d.watch (bitItems c p k)).sr = shiftStage d.sr (wireBit c p k) := rfl

/-- The bits of a list are shifted in one after the other. -/
theorem DisplayRegister.watch_flatMap_bitItems_sr (d : DisplayRegister) (c : Params) (p : Byte) (ks : List Nat) :
    (d.watch (ks.flatMap (bitItems c p))).sr = (ks.map (wireBit c p)).foldl shiftStage d.sr := by
  induction ks generalizing d with
  | nil => rfl
  | cons k ks ih => rw [List.flatMap_cons, DisplayRegister.watch_append, ih, DisplayRegister.watch_bitItems_sr]; rfl

theorem polarityMask_getLsbD (c : Params) {i : Nat} (hi : i < 8) : (polarityMask c).getLsbD i = c.segPolarity := by
  unfold polarityMask
  cases c.segPolarity
  · simp
  · interval_cases i <;> rfl

theorem wireBit_eq (c : Params) (p : Byte) {i : Nat} (hi : i < 8) :
    wireBit c p i = (p ^^^ polarityMask c).getLsbD i := by
  rw [BitVec.getLsbD_xor, polarityMask_getLsbD c hi, wireBit]

/-- Eight bits fill the shift stage, the first one shifted the most significant. -/
theorem foldl_shiftStage_eq (sr x : Byte) : (shiftOrder.map x.getLsbD).foldl shiftStage sr = x := by
  apply BitVec.eq_of_getLsbD_eq
  intro i hi
  simp only [shiftOrder, List.map_cons, List.map_nil, List.foldl_cons, List.foldl_nil]
  interval_cases i <;> simp only [shiftStage_getLsbD_zero, shiftStage_getLsbD_succ, Nat.reduceLT]

/-- After all eight bits the shift stage holds the pattern with its polarity. -/
theorem DisplayRegister.watch_shiftItems_sr (d : DisplayRegister) (c : Params) (p : Byte) :
    (d.watch (shiftItems c p)).sr = p ^^^ polarityMask c := by
  have hbits : shiftOrder.map (wireBit c p) = shiftOrder.map (p ^^^ polarityMask c).getLsbD :=
    List.map_congr_left fun k hk => wireBit_eq c p ((by decide : ∀ k ∈ shiftOrder, k < 8) k hk)
  rw [shiftItems, DisplayRegister.watch_flatMap_bitItems_sr, hbits, foldl_shiftStage_eq]

/-- An item that drives SDATA or SCLK only. -/
def IsShiftItem (x : Item) : Prop := ∃ v, x = .pin .sdata v ∨ x = .pin .sclk v

theorem isShiftItem_of_mem_shiftItems {c : Params} {p : Byte} {x : Item} (hx : x ∈ shiftItems c p) : IsShiftItem x := by
  obtain ⟨k, -, hk⟩ := List.mem_flatMap.1 hx
  simp only [bitItems, List.mem_cons, List.not_mem_nil, or_false] at hk
  rcases hk with rfl | rfl | rfl
  · exact ⟨_, .inl rfl⟩
  · exact ⟨_, .inr rfl⟩
  · exact ⟨_, .inr rfl⟩

/-- Shift items leave the output stage and the select lines. -/
theorem DisplayRegister.watch_shift_frame (d : DisplayRegister) {T : List Item} (hT : ∀ x ∈ T, IsShiftItem x) :
    (d.watch T).out = d.out ∧ ∀ q, (d.watch T).selected q = d.selected q := by
  induction T generalizing d with
  | nil => exact ⟨rfl, fun _ => rfl⟩
  | cons x T ih =>
    obtain ⟨hx, hrest⟩ := List.forall_mem_cons.1 hT
    obtain ⟨hout, hselected⟩ := ih (d.observe x) hrest
    have hframe : (d.observe x).out = d.out ∧ ∀ q, (d.observe x).selected q = d.selected q := by
      obtain ⟨v, rfl | rfl⟩ := hx
      · exact ⟨rfl, fun q => by cases q <;> rfl⟩
      · cases v <;> exact ⟨rfl, fun q => by cases q <;> rfl⟩
    exact ⟨hout.trans hframe.1, fun q => (hselected q).trans (hframe.2 q)⟩

/-! ### The latch items and the whole tick -/

theorem DisplayRegister.watch_latchItems (d : DisplayRegister) :
    (d.watch latchItems).out = d.sr ∧ ∀ q, (d.watch latchItems).selected q = d.selected q :=
  ⟨rfl, fun q => by cases q <;> rfl⟩

/-- After a tick's items the output stage holds the pattern with its polarity, on the serviced position only. -/
theorem DisplayRegister.watch_tickItems (d : DisplayRegister) (c : Params) (q : Pos) (p : Byte) :
    (d.watch (tickItems c q p)).out = p ^^^ polarityMask c ∧ (d.watch (tickItems c q p)).selected q = true ∧
      (d.watch (tickItems c q p)).selected q.other = false := by
  obtain ⟨hon, hoff, -⟩ := d.watch_selectItems q
  obtain ⟨-, hselected⟩ := (d.watch (selectItems q)).watch_shift_frame (T := shiftItems c p)
    fun _ => isShiftItem_of_mem_shiftItems
  have hsr := (d.watch (selectItems q)).watch_shiftItems_sr c p
  obtain ⟨hout, hlatched⟩ := ((d.watch (selectItems q)).watch (shiftItems c p)).watch_latchItems
  rw [tickItems_eq, DisplayRegister.watch_append, DisplayRegister.watch_append, hout, hlatched, hlatched, hselected,
    hselected]
  exact ⟨hsr, hon, hoff⟩

/-- Settles O55: the output stage holds p XOR W, so the lit segments are p. -/
theorem tickLightsThePatternOnItsDigit : Obligations.TickLightsThePatternOnItsDigit := by
  intro s d hr
  obtain ⟨hout, hon, hoff⟩ :=
    d.watch_tickItems s.cfg s.pos.other (segPattern s.cfg s.dispval s.pos.other)
  have hlit : (d.watch (tickItems s.cfg s.pos.other (segPattern s.cfg s.dispval s.pos.other))).lit s.cfg =
      segPattern s.cfg s.dispval s.pos.other := by
    rw [DisplayRegister.lit, hout, BitVec.xor_assoc, BitVec.xor_self, BitVec.xor_zero]
  refine ⟨s.muxTick, _, _, exec_muxtick_live hr, s.muxTick_trace, ?_, hout, hlit, ?_, ?_⟩
  · rw [State.muxTick_pos]; rfl
  · rw [State.muxTick_pos, DisplayRegister.shows_eq, if_pos hon, hlit]
  · rw [State.muxTick_pos, DisplayRegister.shows_eq, hoff, if_neg Bool.false_ne_true]

/-- Settles O56: before the LATCH pulse only select items and shift items have been seen, and these leave the output. -/
theorem newDigitGhostsUntilTheLatch : Obligations.NewDigitGhostsUntilTheLatch := by
  intro s d n hr hmin hmax
  have htake : (tickItems s.cfg s.pos.other (segPattern s.cfg s.dispval s.pos.other)).take n =
      selectItems s.pos.other ++ (shiftItems s.cfg (segPattern s.cfg s.dispval s.pos.other)).take (n - 2) := by
    have hshift : n - 2 ≤ (shiftItems s.cfg (segPattern s.cfg s.dispval s.pos.other)).length :=
      Nat.sub_le_sub_right hmax 2
    rw [tickItems_eq, List.take_append, List.take_of_length_le (l := selectItems s.pos.other) hmin,
      ← List.take_append_of_le_length hshift]
    rfl
  obtain ⟨hon, hoff, hlatched⟩ := d.watch_selectItems s.pos.other
  obtain ⟨hout, hselected⟩ := (d.watch (selectItems s.pos.other)).watch_shift_frame
    (T := (shiftItems s.cfg (segPattern s.cfg s.dispval s.pos.other)).take (n - 2))
    fun _ hx => isShiftItem_of_mem_shiftItems (List.mem_of_mem_take hx)
  refine ⟨s.muxTick, _, exec_muxtick_live hr, s.muxTick_trace, ?_, ?_⟩
  · rw [State.muxTick_pos, htake, DisplayRegister.watch_append, DisplayRegister.shows_eq, hselected, if_pos hon,
      DisplayRegister.lit, hout, hlatched, DisplayRegister.lit]
  · rw [State.muxTick_pos, htake, DisplayRegister.watch_append, DisplayRegister.shows_eq, hselected, hoff,
      if_neg Bool.false_ne_true]

end Sys2Proof.Machine
end
